-- ==== Sys2Proof/Word.lean ====
section
/-!
DEFINITION. The word types of the block (spec/00_scope.md R10) and TRANSPORT's two opaque tokens
(spec/10_state.md R21, R22).
-/

namespace Sys2Proof

/-- A command word, `cmd[63:0]` (30_encoding.md R60). -/
abbrev Word := BitVec 64

/-- A frame-buffer byte (00_scope.md R10). -/
abbrev Byte := BitVec 8

/-- A device handle of TRANSPORT (10_state.md R21). BLOCK stores it and passes it back; it never
looks inside. DESIGN CHOICE (entry 8, safe): the token is a natural number. -/
structure Handle where
  token : Nat
  deriving DecidableEq, Repr, Inhabited

/-- A completion token of TRANSPORT (10_state.md R22). BLOCK stores it and passes it back; it never
looks inside. DESIGN CHOICE (entry 8, safe): the token is a natural number. -/
structure XferId where
  token : Nat
  deriving DecidableEq, Repr, Inhabited

end Sys2Proof
end

