-- ==== Sys2Proof/Config.lean ====
section
/-!
DEFINITION. What is fixed when the block is built (spec/00_scope.md R7) and the free values: the
answers TRANSPORT draws (spec/42_transfer_queue.md R101 to R105) and the two parameters the spec
leaves OPEN.
-/

namespace Sys2Proof

/-- `DMA_CH`: automatic, or a channel TRANSPORT accepts (00_scope.md R7). -/
inductive DmaChannel where
  | auto
  | channel (number : Nat)
  deriving DecidableEq, Repr

/-- `STATUS_POLICY`: what BLOCK does with a failed completion status (42_transfer_queue.md R115). -/
inductive StatusPolicy where
  | surface
  | discard
  deriving DecidableEq, Repr

/-- The configuration record of 00_scope.md R7. `N_MAX` is the constant `nMax`. -/
structure Config where
  /-- `N`, the number of pixels. -/
  n : Nat
  /-- `DATA_PIN`. -/
  dataPin : Nat
  /-- `CLK_PIN`. -/
  clkPin : Nat
  /-- `CLOCK_HZ`. -/
  clockHz : Nat
  /-- `MAX_XFER`; 0 means TRANSPORT's default. -/
  maxXfer : Nat
  /-- `BUS_ID`. -/
  busId : Nat
  /-- `DMA_CH`. -/
  dmaCh : DmaChannel
  /-- `QUEUE_DEPTH`. -/
  queueDepth : Nat
  /-- `FB_BASE`, where TRANSPORT finds frame-buffer byte 0. -/
  fbBase : Nat
  /-- `STATUS_POLICY`. -/
  statusPolicy : StatusPolicy
  deriving DecidableEq, Repr

/-- `N_MAX` (00_scope.md R7). -/
def nMax : Nat := 65535

/-- TRANSPORT's answer to `xport_init` (42_transfer_queue.md R101). -/
inductive InitAnswer where
  | initOk
  | initErr
  deriving DecidableEq, Repr

/-- TRANSPORT's answer to `xport_attach` (42_transfer_queue.md R102). -/
inductive AttachAnswer where
  | attachOk (h : Handle)
  | attachErr
  deriving DecidableEq, Repr

/-- TRANSPORT's answer to `xport_submit` (42_transfer_queue.md R103). -/
inductive SubmitAnswer where
  | accept (id : XferId)
  | reject
  deriving DecidableEq, Repr

/-- TRANSPORT's answer to `xport_poll` (42_transfer_queue.md R104). -/
inductive PollAnswer where
  | pending
  | doneOk
  | doneErr
  deriving DecidableEq, Repr, Inhabited

/-- What TRANSPORT draws for one BLOCK step (42_transfer_queue.md R105): its answer to each request
the step could send, `none` where it has no answer yet (a poll always has one), and the bits a
failed transfer leaves on the wire (R121). The step uses the one component it asks for. -/
structure Draw where
  init : Option InitAnswer
  attach : Option AttachAnswer
  submit : Option SubmitAnswer
  poll : PollAnswer
  /-- Unconstrained wire content, used only when a transfer fails (R121). -/
  badWire : List Bool
  deriving DecidableEq, Repr, Inhabited

/-- FREE VALUE (entry 3): TRANSPORT's `k`-th draw (00_scope.md R4). Nothing constrains it, so a
statement about it holds for every transport. -/
opaque Config.freeDraw : Nat → Draw

/-- FREE VALUE (entry 2): `BUS_ID` is OPEN (00_scope.md R7, 92_eei_decisions.md D21). -/
opaque Config.openBusId : Nat

/-- FREE VALUE (entry 2): `FB_BASE` is OPEN (00_scope.md R7, 92_eei_decisions.md D21). -/
opaque Config.openFbBase : Nat

/-- The defaults of 00_scope.md R7, with the two OPEN parameters free. -/
def Config.default : Config where
  n := 512
  dataPin := 7
  clkPin := 6
  clockHz := 10000000
  maxXfer := 0
  busId := Config.openBusId
  dmaCh := .auto
  queueDepth := 1
  fbBase := Config.openFbBase
  statusPolicy := .surface

end Sys2Proof
end

