-- ==== Sys2Proof/Machine/State.lean ====
section
/-!
DEFINITION. The state of the machine: BLOCK's registers and frame buffer (spec/10_state.md R18), the
parameters it was built with (spec/00_scope.md R7), what TRANSPORT's contract names of TRANSPORT
(spec/10_state.md R31), the coming acts of HOST and TRANSPORT, and what a run has shown
(spec/43_strip_driver.md R138).
-/

namespace Sys2Proof.Machine

/-- `STATE` (10_state.md R20). Its codes are `Fsm.code`. Code 7 is never reached and has no name
here. -/
inductive Fsm where
  | initBus
  | initAttach
  | initFill
  | ready
  | submit
  | wait
  | cfgError
  deriving DecidableEq, Repr

/-- The frame buffer: (offset, byte) cells, offsets strictly rising (`Memory.wf`). A byte that is
not listed has no value (10_state.md R35; entry 7). -/
abbrev Memory := List Host.Cell

/-- One response event: a 3-bit code and 32 bits of data (30_encoding.md R71). -/
structure Response where
  code : BitVec 3
  data : BitVec 32
  deriving DecidableEq, Repr

/-- What HOST does next (43_strip_driver.md R137). -/
inductive HostEvent where
  /-- HOST presents this word until it is accepted (R123). -/
  | present (cmd : Word)
  /-- HOST presents nothing while BLOCK takes one step. -/
  | idle
  /-- The platform reset is asserted (70_reset_and_hazards.md R158). -/
  | reset
  deriving DecidableEq, Repr

/-- `bus_cfg` of `xport_init` (42_transfer_queue.md R101). -/
structure BusCfg where
  dataPin : Nat
  clkPin : Nat
  maxXfer : Nat
  deriving DecidableEq, Repr

/-- `dev_cfg` of `xport_attach` (42_transfer_queue.md R102). -/
structure DevCfg where
  clockHz : Nat
  mode : Nat
  chipSelect : Option Nat
  queueDepth : Nat
  deriving DecidableEq, Repr

/-- A request BLOCK sent and TRANSPORT answered (42_transfer_queue.md R101 to R104). -/
inductive Request where
  | init (busId : Nat) (bus : BusCfg) (dma : DmaChannel)
  | attach (busId : Nat) (dev : DevCfg)
  | submit (handle : Handle) (bufferPtr : Nat) (lenBits : BitVec 32)
  | poll (handle : Handle) (id : XferId)
  deriving DecidableEq, Repr

/-- A transfer TRANSPORT accepted and has not answered DONE for (10_state.md R31, R32). -/
structure Transfer where
  handle : Handle
  id : XferId
  bufferPtr : Nat
  lenBits : BitVec 32
  deriving DecidableEq, Repr

/-- What one ended transfer put on the wire. `ok`: it ended DONE_OK, and `bits` is R118's sequence.
Otherwise `bits` is unconstrained (42_transfer_queue.md R121). -/
structure WireStream where
  ok : Bool
  bits : List Bool
  deriving DecidableEq, Repr

/-- The machine. -/
@[ext]
structure State where
  /-- The parameters of 00_scope.md R7; no step changes them (10_state.md R36). Entry 1. -/
  cfg : Config
  /-- `STATE` (10_state.md R20). -/
  fsm : Fsm
  /-- `HANDLE` (10_state.md R21). -/
  handle : Handle
  /-- `PEND_ID` (10_state.md R22). -/
  pendId : XferId
  /-- `STK_ILLEGAL` (10_state.md R23). -/
  stkIllegal : Bool
  /-- `STK_PRECOND` (10_state.md R23). -/
  stkPrecond : Bool
  /-- `STK_TRANSPORT` (10_state.md R23). -/
  stkTransport : Bool
  /-- `STK_CONFIG` (10_state.md R23). -/
  stkConfig : Bool
  /-- `FB[0..L-1]` (20_memory.md R37). -/
  fb : Memory
  /-- TRANSPORT: the bus is initialised (10_state.md R31). Entry 17. -/
  busInit : Bool
  /-- TRANSPORT: the attached device (10_state.md R31). Entry 17. -/
  device : Option Handle
  /-- TRANSPORT: the submission queue (10_state.md R31, R32). Entry 17. -/
  inFlight : List Transfer
  /-- HOST's coming acts, the next one first. Entry 4. -/
  host : List HostEvent
  /-- TRANSPORT's coming draws, the next one first; after them the free draws. Entry 3. -/
  script : List Draw
  /-- How many draws have been taken; the argument of `Config.freeDraw`. Entry 3. -/
  draws : Nat
  /-- The responses HOST has received, oldest first (43_strip_driver.md R138). Entry 10. -/
  responses : List Response
  /-- The requests TRANSPORT has answered, oldest first. Entry 10. -/
  requests : List Request
  /-- The wire streams of ended transfers, oldest first (43_strip_driver.md R138). Entry 10. -/
  wires : List WireStream
  deriving DecidableEq, Repr

/-- The state after the platform reset of a block built with `c` (10_state.md R34,
70_reset_and_hazards.md R158). DESIGN CHOICE (entry 6, unsafe): HANDLE and PEND_ID, whose reset
values are unspecified, hold the token 0. FB holds no value (entry 7, safe). -/
def State.resetOf (c : Config) : State where
  cfg := c
  fsm := .initBus
  handle := ⟨0⟩
  pendId := ⟨0⟩
  stkIllegal := false
  stkPrecond := false
  stkTransport := false
  stkConfig := false
  fb := []
  busInit := false
  device := none
  inFlight := []
  host := []
  script := []
  draws := 0
  responses := []
  requests := []
  wires := []

/-- The machine right after reset, with the default configuration (entry 2). -/
def State.reset : State := State.resetOf Config.default

/-- Why a step stops. -/
inductive Fault where
  /-- READ_BYTE reads an FB byte that has no value. "A read of "no value" is a model fault, and no
  reachable step performs one" (10_state.md R35). Raised by `execReadByte`. Safe. -/
  | unfilledByte (offset : Nat)
  /-- TRANSPORT reports DONE_OK for a frame with a byte that has no value (10_state.md R35). Raised
  by `waitStep`. Safe. -/
  | unfilledFrame
  deriving DecidableEq, Repr

/-- Why an instruction has no meaning. -/
inductive Refusal where
  /-- The instruction is not modelled yet. No arm of `exec` answers it: every instruction of the
  table has its meaning. Safe. -/
  | notModelled (mnemonic : String)
  deriving DecidableEq, Repr

end Sys2Proof.Machine
end

