-- ==== Sys2Proof/Machine/Flags.lean ====
section
/-!
DEFINITION. The sticky bits, the STATUS port, `cmd_ready`, the response codes and the errors
(spec/10_state.md R20, R23 to R27, spec/30_encoding.md R72, spec/60_exceptions.md R139). The block
has no other flags (spec/10_state.md R24).
-/

namespace Sys2Proof.Machine

/-- The code of `STATE` (10_state.md R20). -/
def Fsm.code : Fsm → BitVec 3
  | .initBus => 0
  | .initAttach => 1
  | .initFill => 2
  | .ready => 3
  | .submit => 4
  | .wait => 5
  | .cfgError => 6

/-- `cmd_ready`: 1 iff `STATE ∈ {READY, CFG_ERROR}` (10_state.md R27). -/
def State.cmdReady (s : State) : Bool :=
  match s.fsm with
  | .ready | .cfgError => true
  | .initBus | .initAttach | .initFill | .submit | .wait => false

/-- The `BUSY` field of STATUS (10_state.md R25). -/
def State.busy (s : State) : Bool :=
  match s.fsm with
  | .initBus | .initAttach | .initFill | .submit | .wait => true
  | .ready | .cfgError => false

/-- The `INFLIGHT` field of STATUS (10_state.md R25). -/
def State.inflightBit (s : State) : Bool := decide (s.fsm = .wait)

/-- A FLUSH is accepted and not answered: `STATE ∈ {SUBMIT, WAIT}` (10_state.md R33). -/
def State.flushing (s : State) : Bool :=
  match s.fsm with
  | .submit | .wait => true
  | .initBus | .initAttach | .initFill | .ready | .cfgError => false

/-- STATUS, the 16-bit read-only port (10_state.md R25). -/
def State.status (s : State) : BitVec 16 :=
  0#4 ++ BitVec.ofBool s.stkConfig ++ BitVec.ofBool s.stkTransport ++ BitVec.ofBool s.stkPrecond ++
    BitVec.ofBool s.stkIllegal ++ 0#3 ++ BitVec.ofBool s.inflightBit ++ BitVec.ofBool s.busy ++
    s.fsm.code

/-- The response codes by name (30_encoding.md R72). -/
inductive RespCode where
  | ok
  | errIllegal
  | errPrecond
  | errXportSubmit
  | errXportAwait
  | errConfig
  deriving DecidableEq, Repr

/-- The number of a response code (30_encoding.md R72). -/
def RespCode.bits : RespCode → BitVec 3
  | .ok => 0
  | .errIllegal => 1
  | .errPrecond => 2
  | .errXportSubmit => 3
  | .errXportAwait => 4
  | .errConfig => 5

/-- The errors that `raise` reports (60_exceptions.md R139). ConfigurationError is not among them:
its step emits no response (43_strip_driver.md R127; entry 14). -/
inductive BlockError where
  | illegalCommand
  | preconditionViolation
  | transportSubmit
  | transportAwait
  deriving DecidableEq, Repr

/-- `code(E)` (60_exceptions.md R139). -/
def BlockError.code : BlockError → RespCode
  | .illegalCommand => .errIllegal
  | .preconditionViolation => .errPrecond
  | .transportSubmit => .errXportSubmit
  | .transportAwait => .errXportAwait

/-- Whether the error sets `STK_ILLEGAL` (60_exceptions.md R139). -/
def BlockError.setsIllegal : BlockError → Bool
  | .illegalCommand => true
  | .preconditionViolation | .transportSubmit | .transportAwait => false

/-- Whether the error sets `STK_PRECOND` (60_exceptions.md R139). -/
def BlockError.setsPrecond : BlockError → Bool
  | .preconditionViolation => true
  | .illegalCommand | .transportSubmit | .transportAwait => false

/-- Whether the error sets `STK_TRANSPORT` (60_exceptions.md R139). -/
def BlockError.setsTransport : BlockError → Bool
  | .transportSubmit | .transportAwait => true
  | .illegalCommand | .preconditionViolation => false

/-- `STK_E <- 1`. A bit already set stays set (60_exceptions.md R146). -/
def State.setSticky (s : State) (e : BlockError) : State :=
  { s with
    stkIllegal := s.stkIllegal || e.setsIllegal
    stkPrecond := s.stkPrecond || e.setsPrecond
    stkTransport := s.stkTransport || e.setsTransport }

end Sys2Proof.Machine
end

