-- ==== Sys2Proof/Machine/Codec.lean ====
section
/-!
DEFINITION. The pixel codec (spec/40_pixel_codec.md): the brightness code, the pixel word, the
default pixel.
-/

namespace Sys2Proof.Machine

/-- `BCODE`, on every integer percentage (40_pixel_codec.md R77). Not monotonic from 8 to 9
(R81, 90_conflicts.md C1). -/
def bcode (p : Int) : Nat :=
  if p ≤ 0 then 0
  else if p ≤ 8 then 1
  else if p ≤ 99 then ((p - 7) / 3).toNat
  else 31

/-- The header byte of a brightness code: the marker `0b111` above the 5-bit code
(30_encoding.md R57). -/
def headerByte (code : Nat) : Byte := 0xE0#8 ||| BitVec.ofNat 8 code

/-- `ENCODE`: header, blue, green, red (40_pixel_codec.md R79). -/
def encodePixel (red green blue : Byte) (p : Int) : List Byte :=
  [headerByte (bcode p), blue, green, red]

/-- The brightness look-up table: `BCODE` on the 8-bit field `BRI` (40_pixel_codec.md R78). -/
def brightnessLut (bri : Byte) : Nat := bcode bri.toNat

/-- `DEFAULT_PIXEL`, that is `ENCODE(0, 0, 0, 3)` (40_pixel_codec.md R83). -/
def defaultPixel : List Byte := encodePixel 0 0 0 3

/-- A pixel word as a 32-bit value in wire order (30_encoding.md R58): a reader's view, which no
step uses. -/
def pixelWord32 (code : BitVec 5) (blue green red : Byte) : BitVec 32 :=
  (0b111#3).setWidth 32 <<< 29 ||| code.setWidth 32 <<< 24 ||| blue.setWidth 32 <<< 16 |||
    green.setWidth 32 <<< 8 ||| red.setWidth 32

end Sys2Proof.Machine
end

