-- ==== Sys2Proof/Syntax.lean ====
section
/-!
DEFINITION. The four host commands (spec/30_encoding.md R61, spec/opcode_table.json).
-/

namespace Sys2Proof

/-- A host command with its fields at the widths of 30_encoding.md R62 to R65. -/
inductive Instr where
  /-- `SET_PIXEL idx, red, green, blue, bri` (41_frame_buffer.md R90). -/
  | setPixel (idx : BitVec 16) (red green blue bri : Byte)
  /-- `FLUSH` (42_transfer_queue.md R110). -/
  | flush
  /-- `READ_BYTE off` (41_frame_buffer.md R94). -/
  | readByte (off : BitVec 24)
  /-- `GET_LENGTH` (41_frame_buffer.md R96). -/
  | getLength
  deriving DecidableEq, Repr

end Sys2Proof
end

