-- ==== Sys2Proof/WellFormed.lean ====
section
/-!
DEFINITION. What may be written down and what is refused: commands, assembler lines
(spec/30_encoding.md R75) and configurations (spec/00_scope.md R8).
-/

namespace Sys2Proof

/-- Every command is well formed: its fields are bit vectors of exactly the encoded widths, so no
value of `Instr` can hold a field that does not fit (30_encoding.md R66). -/
def Instr.wellFormed : Instr → Bool
  | .setPixel _ _ _ _ _ => true
  | .flush => true
  | .readByte _ => true
  | .getLength => true

/-- One line of the command syntax (30_encoding.md R75) as parsed, its numbers not yet checked; the text
is read by `assembleLine`. -/
inductive AsmLine where
  | setPixel (idx red green blue bri : Nat)
  | flush
  | readByte (off : Nat)
  | getLength
  | word (value : Nat)
  deriving DecidableEq, Repr

/-- "An assembler refuses a value that does not fit its field" (30_encoding.md R75). -/
def AsmLine.fits : AsmLine → Bool
  | .setPixel idx red green blue bri =>
    decide (idx < 2 ^ 16) && decide (red < 256) && decide (green < 256) && decide (blue < 256) &&
      decide (bri < 2 ^ 8)
  | .flush => true
  | .readByte off => decide (off < 2 ^ 24)
  | .getLength => true
  | .word value => decide (value < 2 ^ 64)

/-- The legal configurations (00_scope.md R7, R8): `1 ≤ N ≤ N_MAX` and `QUEUE_DEPTH = 1`. Every
other parameter is TRANSPORT's to judge. -/
def Config.legal (c : Config) : Bool :=
  decide (1 ≤ c.n) && decide (c.n ≤ nMax) && decide (c.queueDepth = 1)

end Sys2Proof
end

