-- ==== Sys2Proof/Machine/Operands.lean ====
section
/-!
DEFINITION. The frame's layout and the offsets the commands reach: lengths (spec/41_frame_buffer.md
R85), segments (spec/20_memory.md R38, R39), pixel offsets, the frame as a byte sequence
(spec/30_encoding.md R59, spec/41_frame_buffer.md R89, R100) and its bits on the wire
(spec/42_transfer_queue.md R118).
-/

namespace Sys2Proof.Machine

/-- `ceil(a / b)` (00_scope.md R12). -/
def ceilDiv (a b : Nat) : Nat := (a + b - 1) / b

/-- `PAD`, the end segment's length (41_frame_buffer.md R85; the ceiling form, 90_conflicts.md
C2). -/
def padLen (n : Nat) : Nat := ceilDiv n 16 + 1

/-- `L`, the frame buffer's length (41_frame_buffer.md R85). -/
def frameLen (n : Nat) : Nat := 4 + 4 * n + 4 + padLen n

/-- The submitted length, the whole frame in bits as a 32-bit value (42_transfer_queue.md R106). -/
def lenBits (n : Nat) : BitVec 32 := BitVec.ofNat 32 (8 * frameLen n)

/-- Offset of the first byte of pixel `idx` (20_memory.md R38). -/
def pixelOffset (idx : BitVec 16) : Nat := 4 + 4 * idx.toNat

/-- Offset named by `OFF` (30_encoding.md R66). -/
def byteOffset (off : BitVec 24) : Nat := off.toNat

/-- The segments of the frame buffer (20_memory.md R38, R39). -/
inductive Segment where
  | start
  | pixel (index byte : Nat)
  | reset
  | padding
  | out
  deriving DecidableEq, Repr

/-- `seg(k)` for a chain of `n` pixels (20_memory.md R39). -/
def segmentOf (n k : Nat) : Segment :=
  if k < 4 then .start
  else if k < 4 + 4 * n then .pixel ((k - 4) / 4) ((k - 4) % 4)
  else if k < 8 + 4 * n then .reset
  else if k < frameLen n then .padding
  else .out

/-- `frame(PIX)` (41_frame_buffer.md R100, 30_encoding.md R59): start, the pixel words in chain
order, reset, padding. -/
def frameOf (pix : List (List Byte)) : List Byte :=
  List.replicate 4 0x00#8 ++ pix.flatten ++ List.replicate 4 0x00#8 ++
    List.replicate (padLen pix.length) 0x00#8

/-- `DEFAULT_FRAME` (41_frame_buffer.md R89). -/
def defaultFrame (n : Nat) : List Byte := frameOf (List.replicate n defaultPixel)

/-- The bits of one byte, most significant first (20_memory.md R42). -/
def byteBits (b : Byte) : List Bool :=
  [b.getLsbD 7, b.getLsbD 6, b.getLsbD 5, b.getLsbD 4, b.getLsbD 3, b.getLsbD 2, b.getLsbD 1,
    b.getLsbD 0]

/-- `wire(FB)`: the bytes in increasing offset order, each most significant bit first
(42_transfer_queue.md R118). -/
def wireBits : List Byte → List Bool
  | [] => []
  | b :: rest => byteBits b ++ wireBits rest

end Sys2Proof.Machine
end

