-- ==== Sys2Proof/Machine/Ops.lean ====
section
/-!
DEFINITION. The operations every meaning is built from: the frame buffer's reads and writes
(spec/00_scope.md R13, spec/20_memory.md R46), responding and raising an error (spec/00_scope.md
R14, spec/60_exceptions.md R147), accepting a command (spec/43_strip_driver.md R123 to R126), and the
exchange with TRANSPORT (spec/42_transfer_queue.md R101 to R105).
-/

namespace Sys2Proof.Machine

/-- What a step answers. -/
abbrev Answer := Host.Outcome State Fault Refusal

/-! The frame buffer. -/

/-- `FB[k]`, none where the byte has no value (10_state.md R35). A read has no side effect
(20_memory.md R48). -/
def Memory.read : Memory → Nat → Option Byte
  | [], _ => none
  | (a, b) :: rest, k => if a = k then some b else Memory.read rest k

/-- The cells of a run of bytes that begins at offset `a`. -/
def Memory.number (a : Nat) : List Byte → Memory
  | [] => []
  | b :: rest => (a, b) :: Memory.number (a + 1) rest

/-- `MemWrite(a, n, bytes)`: the run replaces what stood at its offsets, all in one step
(00_scope.md R13, 20_memory.md R47). -/
def Memory.write (m : Memory) (a : Nat) (bytes : List Byte) : Memory :=
  m.filter (fun c => decide (c.1 < a)) ++ Memory.number a bytes ++
    m.filter (fun c => decide (a + bytes.length ≤ c.1))

/-- All offsets are at least `lo` and strictly rise. -/
def Memory.risesFrom : Nat → Memory → Bool
  | _, [] => true
  | lo, (a, _) :: rest => decide (lo ≤ a) && Memory.risesFrom (a + 1) rest

/-- The canonical form: offsets strictly rise. An unlisted byte has no value, so no entry can equal
what an unlisted offset reads as. -/
def Memory.wf (m : Memory) : Bool := Memory.risesFrom 0 m

/-- The `n` bytes from `k` on as `rd` reads them, none if one of them has no value. -/
def readRun (rd : Nat → Option Byte) : Nat → Nat → Option (List Byte)
  | _, 0 => some []
  | k, n + 1 =>
    match rd k with
    | none => none
    | some b => (readRun rd (k + 1) n).map (fun bs => b :: bs)

/-- `MemRead(k, n)` (00_scope.md R13). -/
def State.memRead (s : State) (k n : Nat) : Option (List Byte) := readRun s.fb.read k n

/-- `MemWrite(a, n, bytes)` on FB (00_scope.md R13). -/
def State.memWrite (s : State) (a : Nat) (bytes : List Byte) : State :=
  { s with fb := s.fb.write a bytes }

/-- What TRANSPORT reads at an address of its own space: FB byte `k` stands at `FB_BASE + k`
(20_memory.md R40). -/
def State.transportRead (s : State) (addr : Nat) : Option Byte :=
  if s.cfg.fbBase ≤ addr then s.fb.read (addr - s.cfg.fbBase) else none

/-- The frame as TRANSPORT reads it, by reference, for a transfer of the whole buffer
(42_transfer_queue.md R107, R118). -/
def State.transportFrame (s : State) : Option (List Byte) :=
  readRun s.transportRead s.cfg.fbBase (frameLen s.cfg.n)

/-! BLOCK's registers and the response port. -/

/-- `STATE <- f`. -/
def State.goto (s : State) (f : Fsm) : State := { s with fsm := f }

/-- `respond(code, data)` (00_scope.md R14). -/
def State.respond (s : State) (code : RespCode) (data : BitVec 32) : State :=
  { s with responses := s.responses ++ [⟨code.bits, data⟩] }

/-- `raise E(info)`: the sticky bit and the response, in one step, and nothing else (00_scope.md
R14). Nothing is saved, nothing is vectored, and there is no return (60_exceptions.md R147, R148);
`info` is recorded nowhere (R139). -/
def State.raise (s : State) (e : BlockError) : State := (s.setSticky e).respond e.code 0

/-- ConfigurationError: CFG_ERROR and `STK_CONFIG`, and no response, because no command is
outstanding (43_strip_driver.md R127, R129). DEDUCED (entry 14, safe). -/
def State.configError (s : State) : State := { s with fsm := .cfgError, stkConfig := true }

/-! HOST's acts. -/

/-- The handshake: the presented word leaves HOST (43_strip_driver.md R123). -/
def State.handshake (s : State) : State := { s with host := s.host.tail }

/-- What is left of HOST's acts once a step in which it presents nothing has passed. -/
def dropIdle : List HostEvent → List HostEvent
  | .idle :: rest => rest
  | events => events

/-- One step of BLOCK's own passes: an `idle` of HOST is over, a held word stays with HOST
(43_strip_driver.md R123). -/
def State.passIdle (s : State) : State := { s with host := dropIdle s.host }

/-- The dispatch every accepted word goes through: in READY its rule, in CFG_ERROR the answer
ERR_CONFIG and no state change, in every other state no dispatch step, so the word stays with HOST
(43_strip_driver.md R123, R124, R126, 60_exceptions.md R149). -/
def accept (s : State) (rule : State → Answer) : Answer :=
  match s.fsm with
  | .ready => rule s.handshake
  | .cfgError => .next (s.handshake.respond .errConfig 0)
  | .initBus | .initAttach | .initFill | .submit | .wait => .next s

/-! The exchange with TRANSPORT. -/

/-- TRANSPORT's next draw: the scripted one, or a free one (00_scope.md R4; entry 3). -/
def State.nextDraw (s : State) : Draw :=
  match s.script with
  | d :: _ => d
  | [] => Config.freeDraw s.draws

/-- The draw is taken. -/
def State.takeDraw (s : State) : State :=
  { s with script := s.script.tail, draws := s.draws + 1 }

/-- TRANSPORT has answered this request. -/
def State.sent (s : State) (r : Request) : State := { s with requests := s.requests ++ [r] }

/-- A transfer has ended, and this is what it put on the wire. -/
def State.transmitted (s : State) (w : WireStream) : State := { s with wires := s.wires ++ [w] }

/-- `xport_init(BUS_ID, bus_cfg, DMA_CH)` (42_transfer_queue.md R101). -/
def initRequest (c : Config) : Request :=
  .init c.busId ⟨c.dataPin, c.clkPin, c.maxXfer⟩ c.dmaCh

/-- `xport_attach(BUS_ID, dev_cfg)`: mode 3, no chip select (42_transfer_queue.md R102). -/
def attachRequest (c : Config) : Request :=
  .attach c.busId ⟨c.clockHz, 3, none, c.queueDepth⟩

/-- `xport_submit(HANDLE, FB_BASE, len_bits)` (42_transfer_queue.md R103, R106, R107). -/
def submitRequest (s : State) : Request := .submit s.handle s.cfg.fbBase (lenBits s.cfg.n)

/-- `xport_poll(HANDLE, PEND_ID)` (42_transfer_queue.md R104, R113). -/
def pollRequest (s : State) : Request := .poll s.handle s.pendId

/-- The transfer a submission under token `id` starts (42_transfer_queue.md R111). -/
def submission (s : State) (id : XferId) : Transfer :=
  ⟨s.handle, id, s.cfg.fbBase, lenBits s.cfg.n⟩

/-- A legal configuration builds a block, which then is in its reset state. An illegal one has no
block and no run (00_scope.md R8). -/
def State.build (c : Config) : Option State :=
  if c.legal then some (State.resetOf c) else none

end Sys2Proof.Machine
end

