-- ==== Sys2Proof/Machine/Flush.lean ====
section
/-!
DEFINITION. The transfer-queue FSM: FLUSH and the SUBMIT and WAIT steps that complete it
(spec/42_transfer_queue.md R110 to R116).
-/

namespace Sys2Proof.Machine

/-- FLUSH, the accepting step; the response comes from `submitStep` or `waitStep`
(42_transfer_queue.md R110). -/
def execFlush (s : State) : Answer := accept s fun t => .next (t.goto .submit)

/-- The SUBMIT step: accepted (42_transfer_queue.md R111), rejected (R112), or held while TRANSPORT
has no answer (R105). What a rejected submission left on the wire is a draw
(93_implementation_defined.md U3; entry 13). -/
def submitStep (s : State) : Answer :=
  match s.nextDraw.submit with
  | none => .next s.takeDraw
  | some (.accept id) =>
    .next
      { s.takeDraw.sent (submitRequest s) with
        pendId := id
        inFlight := s.inFlight ++ [submission s id]
        fsm := .wait }
  | some .reject =>
    .next
      ((((s.takeDraw.sent (submitRequest s)).transmitted ⟨false, s.nextDraw.badWire⟩).goto
        .ready).raise .transportSubmit)

/-- What both DONE answers have in common: the poll is sent, the transfer is no longer in flight,
its wire content is `w`, and STATE is READY (42_transfer_queue.md R114, R115, 10_state.md R32). -/
def pollDone (s : State) (w : WireStream) : State :=
  { (s.takeDraw.sent (pollRequest s)).transmitted w with
    inFlight := s.inFlight.eraseP (fun x => decide (x.id = s.pendId))
    fsm := .ready }

/-- The WAIT step: one poll, answered PENDING (42_transfer_queue.md R113), DONE_OK (R114, with the
wire stream of R118) or DONE_ERR (R115, with unconstrained wire content, R121). -/
def waitStep (s : State) : Answer :=
  match s.nextDraw.poll with
  | .pending => .next (s.takeDraw.sent (pollRequest s))
  | .doneOk =>
    match s.transportFrame with
    | some bytes => .next ((pollDone s ⟨true, wireBits bytes⟩).respond .ok 0)
    | none => .fault .unfilledFrame
  | .doneErr =>
    match s.cfg.statusPolicy with
    | .surface => .next ((pollDone s ⟨false, s.nextDraw.badWire⟩).raise .transportAwait)
    | .discard => .next ((pollDone s ⟨false, s.nextDraw.badWire⟩).respond .ok 0)

end Sys2Proof.Machine
end

