-- ==== Sys2Proof/Machine/FrameBuffer.lean ====
section
/-!
DEFINITION. The three commands that reach the frame buffer and its length: SET_PIXEL, READ_BYTE and
GET_LENGTH (spec/41_frame_buffer.md R90 to R96).
-/

namespace Sys2Proof.Machine

/-- SET_PIXEL (41_frame_buffer.md R90, R91). -/
def execSetPixel (idx : BitVec 16) (red green blue bri : Byte) (s : State) : Answer :=
  accept s fun t =>
    if t.cfg.n ≤ idx.toNat then
      .next (t.raise .preconditionViolation)
    else
      .next ((t.memWrite (pixelOffset idx) (encodePixel red green blue bri.toNat)).respond .ok 0)

/-- READ_BYTE (41_frame_buffer.md R94, R95). A byte with no value is a model fault (10_state.md
R35). -/
def execReadByte (off : BitVec 24) (s : State) : Answer :=
  accept s fun t =>
    if frameLen t.cfg.n ≤ byteOffset off then
      .next (t.raise .preconditionViolation)
    else
      match t.fb.read (byteOffset off) with
      | some b => .next (t.respond .ok (b.setWidth 32))
      | none => .fault (.unfilledByte (byteOffset off))

/-- GET_LENGTH (41_frame_buffer.md R96). -/
def execGetLength (s : State) : Answer :=
  accept s fun t => .next (t.respond .ok (BitVec.ofNat 32 t.cfg.n))

end Sys2Proof.Machine
end

