-- ==== Sys2Proof/Machine/Dispatch.lean ====
section
/-!
DEFINITION. The one match from commands to their meanings (spec/43_strip_driver.md R126).
-/

namespace Sys2Proof.Machine

def exec (i : Instr) (s : State) : Host.Outcome State Fault Refusal :=
  match i with
  | .setPixel idx red green blue bri => Sys2Proof.Machine.execSetPixel idx red green blue bri s
  | .flush => Sys2Proof.Machine.execFlush s
  | .readByte off => Sys2Proof.Machine.execReadByte off s
  | .getLength => Sys2Proof.Machine.execGetLength s

end Sys2Proof.Machine
end

