-- ==== Sys2Proof/Decode.lean ====
section
/-!
DEFINITION. Decoding of command words (spec/30_encoding.md R60 to R70), the encoder written from the
same formats, and the assembler of R75, from parsed lines and from text.
-/

namespace Sys2Proof

/-- Why a word selects no command (30_encoding.md R67, R68). Both are one error to the block,
IllegalCommand (60_exceptions.md R140). -/
inductive IllegalReason where
  /-- The opcode is `0x0` or `0x5 .. 0xF` (R67). -/
  | reservedOpcode
  /-- The opcode is defined and a reserved bit is 1 (R68). -/
  | reservedBits
  deriving DecidableEq, Repr

/-- What a word decodes to: a command, or ILLEGAL (30_encoding.md R69). -/
inductive Decoded where
  | command (i : Instr)
  | illegal (reason : IllegalReason)
  deriving DecidableEq, Repr

/-- `cmd[63:60]`, the opcode (30_encoding.md R60). -/
def opcodeOf (w : Word) : BitVec 4 := w.extractLsb' 60 4

/-- The name of the reason an ILLEGAL word is refused for. -/
def illegalReason (w : Word) : IllegalReason :=
  if opcodeOf w = 0x1#4 ∨ opcodeOf w = 0x2#4 ∨ opcodeOf w = 0x3#4 ∨ opcodeOf w = 0x4#4 then
    .reservedBits
  else
    .reservedOpcode

/-- `decode`, total on all words (30_encoding.md R69), with the fields of R66. It reads the word
alone (R70). -/
def decode (w : Word) : Decoded :=
  if w &&& 0xFF000000000000FF#64 = 0x1000000000000000#64 then
    .command (.setPixel (w.extractLsb' 40 16) (w.extractLsb' 32 8) (w.extractLsb' 24 8)
      (w.extractLsb' 16 8) (w.extractLsb' 8 8))
  else if w = 0x2000000000000000#64 then
    .command .flush
  else if w &&& 0xFFFFFFFFFF000000#64 = 0x3000000000000000#64 then
    .command (.readByte (w.extractLsb' 0 24))
  else if w = 0x4000000000000000#64 then
    .command .getLength
  else
    .illegal (illegalReason w)

/-- A field's value with its least significant bit at bit `lo` of the word. -/
def field {n : Nat} (v : BitVec n) (lo : Nat) : Word := v.setWidth 64 <<< lo

/-- The word of a command, from the formats of 30_encoding.md R62 to R65: the opcode in bits 63:60,
each field at its place, every other bit 0. -/
def encode : Instr → Word
  | .setPixel idx red green blue bri =>
    field 0x1#4 60 ||| field idx 40 ||| field red 32 ||| field green 24 ||| field blue 16 |||
      field bri 8
  | .flush => field 0x2#4 60
  | .readByte off => field 0x3#4 60 ||| field off 0
  | .getLength => field 0x4#4 60

/-- The assembler (30_encoding.md R75, R76): each line gives the one word of its format, and a value
that does not fit its field is refused. -/
def assemble (l : AsmLine) : Option Word :=
  if l.fits then
    match l with
    | .setPixel idx red green blue bri =>
      some (encode (.setPixel (BitVec.ofNat 16 idx) (BitVec.ofNat 8 red) (BitVec.ofNat 8 green)
        (BitVec.ofNat 8 blue) (BitVec.ofNat 8 bri)))
    | .flush => some (encode .flush)
    | .readByte off => some (encode (.readByte (BitVec.ofNat 24 off)))
    | .getLength => some (encode .getLength)
    | .word value => some (BitVec.ofNat 64 value)
  else
    none

/-! The text of assembler lines (30_encoding.md R75), as lists of characters. -/

/-- Spaces and tabs. DESIGN CHOICE (entry 18, safe): they may stand around every word and comma. -/
def isBlank (c : Char) : Bool := decide (c = ' ') || decide (c = '\t')

/-- A word without the blanks at its two ends. -/
def trimBlanks (cs : List Char) : List Char :=
  ((cs.dropWhile isBlank).reverse.dropWhile isBlank).reverse

/-- The pieces between commas. -/
def splitCommas : List Char → List (List Char)
  | [] => [[]]
  | c :: rest =>
    match splitCommas rest with
    | [] => [[c]]
    | piece :: pieces => if c = ',' then [] :: piece :: pieces else (c :: piece) :: pieces

/-- The value of a digit. DESIGN CHOICE (entry 18, safe): hexadecimal letters of either case. -/
def digitValue (c : Char) : Nat :=
  if '0' ≤ c ∧ c ≤ '9' then c.toNat - 48
  else if 'a' ≤ c ∧ c ≤ 'f' then c.toNat - 87
  else if 'A' ≤ c ∧ c ≤ 'F' then c.toNat - 55
  else 16

/-- The number its digits give in a base, the digits before them giving `acc`; none if one of them is
no digit of the base. -/
def digitsValue (base : Nat) : Nat → List Char → Option Nat
  | acc, [] => some acc
  | acc, c :: rest =>
    if digitValue c < base then digitsValue base (base * acc + digitValue c) rest else none

/-- "Numbers are decimal, or hexadecimal with `0x`" (30_encoding.md R75). -/
def parseNumber : List Char → Option Nat
  | [] => none
  | ['0', 'x'] => none
  | '0' :: 'x' :: digits => digitsValue 16 0 digits
  | digits => digitsValue 10 0 digits

/-- The numbers of an operand list, none where it is not a list of numbers between commas. -/
def parseNumbers : List (List Char) → Option (List Nat)
  | [] => some []
  | piece :: pieces =>
    match parseNumber (trimBlanks piece), parseNumbers pieces with
    | some v, some vs => some (v :: vs)
    | _, _ => none

/-- A line with a command in it: the mnemonic, then its operands (30_encoding.md R75). -/
def parseCommand (cs : List Char) : Option AsmLine :=
  let operands := trimBlanks (cs.dropWhile fun c => !isBlank c)
  let numbers := if operands = [] then some [] else parseNumbers (splitCommas operands)
  match cs.takeWhile (fun c => !isBlank c), numbers with
  | ['S', 'E', 'T', '_', 'P', 'I', 'X', 'E', 'L'], some [idx, red, green, blue, bri] =>
    some (.setPixel idx red green blue bri)
  | ['F', 'L', 'U', 'S', 'H'], some [] => some .flush
  | ['R', 'E', 'A', 'D', '_', 'B', 'Y', 'T', 'E'], some [off] => some (.readByte off)
  | ['G', 'E', 'T', '_', 'L', 'E', 'N', 'G', 'T', 'H'], some [] => some .getLength
  | ['.', 'w', 'o', 'r', 'd'], some [value] => some (.word value)
  | _, _ => none

/-- One line of text: `;` starts a comment, a line without a command gives no word, and a line that is
no command, or whose numbers do not fit, is refused (30_encoding.md R75, R76). -/
def assembleLine (line : List Char) : Option (List Word) :=
  let body := trimBlanks (line.takeWhile fun c => decide (c ≠ ';'))
  if body = [] then some []
  else
    match parseCommand body with
    | some l => (assemble l).map fun w => [w]
    | none => none

/-- A program, one command per line (30_encoding.md R75). -/
def assembleProgram : List (List Char) → Option (List Word)
  | [] => some []
  | line :: lines =>
    match assembleLine line, assembleProgram lines with
    | some ws, some rest => some (ws ++ rest)
    | _, _ => none

/-- The one command word that a table row's `nbits` low bits `w` stand for. Every command is one
64-bit word handed over whole on a port, so no byte order applies (20_memory.md R43,
30_encoding.md R60). DEDUCED (entry 15, safe). -/
def tableWord (nbits w : Nat) : Word := BitVec.ofNat 64 (w % 2 ^ nbits)

/-- What the decoder reads from a row of spec/opcode_table.json, none where it refuses. -/
def decodeTableWord (nbits w : Nat) : Option Instr :=
  match decode (tableWord nbits w) with
  | .command i => some i
  | .illegal _ => none

end Sys2Proof
end

