-- ==== Sys2Proof/Machine/Init.lean ====
section
/-!
DEFINITION. Initialisation and reset: the INIT_BUS, INIT_ATTACH and INIT_FILL steps
(spec/43_strip_driver.md R127 to R130) and the platform reset (spec/70_reset_and_hazards.md R158).
-/

namespace Sys2Proof.Machine

/-- The INIT_BUS step (43_strip_driver.md R127), held while TRANSPORT has no answer
(42_transfer_queue.md R105). -/
def initBusStep (s : State) : Answer :=
  match s.nextDraw.init with
  | none => .next s.takeDraw
  | some .initOk =>
    .next { s.takeDraw.sent (initRequest s.cfg) with busInit := true, fsm := .initAttach }
  | some .initErr => .next (s.takeDraw.sent (initRequest s.cfg)).configError

/-- The INIT_ATTACH step: attached (43_strip_driver.md R128), refused (R129), or held while TRANSPORT
has no answer (42_transfer_queue.md R105). -/
def initAttachStep (s : State) : Answer :=
  match s.nextDraw.attach with
  | none => .next s.takeDraw
  | some (.attachOk h) =>
    .next
      { s.takeDraw.sent (attachRequest s.cfg) with
        handle := h
        device := some h
        fsm := .initFill }
  | some .attachErr => .next (s.takeDraw.sent (attachRequest s.cfg)).configError

/-- The INIT_FILL step: `MemWrite(0, L, DEFAULT_FRAME)` in one atomic step, then READY
(43_strip_driver.md R130). -/
def initFillStep (s : State) : Answer :=
  .next ((s.memWrite 0 (defaultFrame s.cfg.n)).goto .ready)

/-- The platform reset: BLOCK and TRANSPORT together take their reset state (70_reset_and_hazards.md
R158), in whatever state it is asserted. The configuration stays, HOST and TRANSPORT go on with their
coming acts, and what the run has shown stays shown (entry 10). A transfer of an accepted FLUSH ends
here: its response never comes, and what it left on the wire is a draw (R159; entry 13). -/
def platformReset (s : State) : State :=
  { State.resetOf s.cfg with
    host := s.host.tail
    script := if s.flushing then s.script.tail else s.script
    draws := if s.flushing then s.draws + 1 else s.draws
    responses := s.responses
    requests := s.requests
    wires := if s.flushing then s.wires ++ [⟨false, s.nextDraw.badWire⟩] else s.wires }

end Sys2Proof.Machine
end

