-- ==== Sys2Proof/Machine/Driver.lean ====
section
/-!
DEFINITION. Whose turn it is: the command port, illegal words and BLOCK's own steps
(spec/43_strip_driver.md R123 to R126, R133).
-/

namespace Sys2Proof.Machine

/-- What the next step is. -/
inductive Turn where
  /-- The platform reset is asserted. -/
  | reset
  /-- BLOCK accepts a word that decodes to this command. -/
  | command (i : Instr)
  /-- BLOCK accepts an illegal word. -/
  | illegal
  /-- BLOCK takes no word: its own step, or none. -/
  | own
  deriving DecidableEq, Repr

/-- What an accepted word selects; decoding reads the word alone (30_encoding.md R69, R70). -/
def turnOfWord (w : Word) : Turn :=
  match decode w with
  | .command i => .command i
  | .illegal _ => .illegal

/-- A reset may be asserted in any state (70_reset_and_hazards.md R158). A presented word is accepted
iff `cmd_ready = 1` (43_strip_driver.md R123). -/
def State.turn (s : State) : Turn :=
  match s.host with
  | .reset :: _ => .reset
  | .present w :: _ => if s.cmdReady then turnOfWord w else .own
  | .idle :: _ => .own
  | [] => .own

/-- An accepted illegal word: IllegalCommand in READY (43_strip_driver.md R125), ERR_CONFIG in
CFG_ERROR (R124). -/
def illegalStep (s : State) : Answer := accept s fun t => .next (t.raise .illegalCommand)

/-- BLOCK's step when it takes no word (43_strip_driver.md R133). In READY and CFG_ERROR there is
none, and nothing changes. -/
def ownStepAt (s : State) : Answer :=
  match s.fsm with
  | .initBus => initBusStep s
  | .initAttach => initAttachStep s
  | .initFill => initFillStep s
  | .ready => .next s
  | .submit => submitStep s
  | .wait => waitStep s
  | .cfgError => .next s

/-- BLOCK's own step; an idle act of HOST passes with it. -/
def ownStep (s : State) : Answer := ownStepAt s.passIdle

/-- The state in which the next step can accept a word: the given one if its port is ready, else
that of a finished boot or flush, with FB filled if it was not yet. DESIGN CHOICE (entry 5, safe). -/
def State.atReady (s : State) : State :=
  match s.fsm with
  | .ready | .cfgError => s
  | .submit | .wait => { s with fsm := .ready, inFlight := [] }
  | .initBus | .initAttach | .initFill =>
    { s with
      fsm := .ready
      fb := s.fb.write 0 (defaultFrame s.cfg.n)
      busInit := true
      device := some s.handle
      inFlight := [] }

/-- HOST presents `w` next. -/
def State.presenting (s : State) (w : Word) : State := { s with host := .present w :: s.host }

end Sys2Proof.Machine
end

