-- ==== Sys2Proof/Machine/Step.lean ====
section
/-!
DEFINITION. One step of the machine, and how a command word is placed for the next step
(spec/43_strip_driver.md R123 to R133).
-/

namespace Sys2Proof.Machine

/-- One step. A step that accepts a command is `exec` of it, with nothing around it: the handshake is
part of every meaning (`accept`). -/
def step (s : State) : Host.Outcome State Fault Refusal :=
  match s.turn with
  | .reset => .next (platformReset s)
  | .command i => exec i s
  | .illegal => illegalStep s
  | .own => ownStep s

/-- `s` with the word of a table row presented by HOST, and the port ready to accept it (entry 5). -/
def State.withFetchWord (s : State) (nbits w : Nat) : State :=
  s.atReady.presenting (tableWord nbits w)

end Sys2Proof.Machine
end

