-- ==== Sys2Proof/Safety.lean ====
section
/-!
DEFINITION. The terms claims use: what holds in every state a run reaches (`State.Inv`), when a run
has ended (spec/43_strip_driver.md R136), the transitions of the FSM (R133), and what two states may
share.
-/

namespace Sys2Proof.Machine

/-- FB has been filled: `STATE ∈ {READY, SUBMIT, WAIT}` (10_state.md R35). -/
def State.filled (s : State) : Bool :=
  match s.fsm with
  | .ready | .submit | .wait => true
  | .initBus | .initAttach | .initFill | .cfgError => false

/-- HANDLE is valid: `STATE ∈ {INIT_FILL, READY, SUBMIT, WAIT}` (10_state.md R21). -/
def State.handleValid (s : State) : Bool :=
  match s.fsm with
  | .initFill | .ready | .submit | .wait => true
  | .initBus | .initAttach | .cfgError => false

/-- The bus was initialised in this reset period: every state after INIT_BUS but CFG_ERROR, which is
entered from both sides (43_strip_driver.md R131, R133). -/
def State.busUp (s : State) : Bool :=
  match s.fsm with
  | .initAttach | .initFill | .ready | .submit | .wait => true
  | .initBus | .cfgError => false

/-- Whether a segment is kept zero (41_frame_buffer.md R87). -/
def Segment.isZero : Segment → Bool
  | .start | .reset | .padding => true
  | .pixel _ _ | .out => false

/-- FB holds a frame (41_frame_buffer.md R87, R97 to R99): exactly the offsets below `L` have a value,
the start, reset and end segments are zero, and every pixel word begins with a header byte. -/
structure FrameOk (s : State) : Prop where
  extent : ∀ k, (s.fb.read k).isSome = true ↔ k < frameLen s.cfg.n
  zeros : ∀ k, (segmentOf s.cfg.n k).isZero = true → s.fb.read k = some 0x00#8
  headers : ∀ i, i < s.cfg.n → ∃ code, code ≤ 31 ∧ s.fb.read (4 + 4 * i) = some (headerByte code)

/-- What holds at reset and what every step keeps. -/
structure State.Inv (s : State) : Prop where
  /-- The configuration is one a block can be built with (00_scope.md R8). -/
  legal : s.cfg.legal = true
  /-- FB has the canonical form. -/
  fbWf : s.fb.wf = true
  /-- FB holds a frame once it has been filled (41_frame_buffer.md R97). -/
  frame : s.filled = true → FrameOk s
  /-- Before that no byte has a value (10_state.md R34, R35). -/
  unfilled : s.filled = false → s.fb = []
  /-- In WAIT exactly the transfer of PEND_ID is in flight (10_state.md R22, R32). -/
  waiting : s.fsm = .wait → s.inFlight = [submission s s.pendId]
  /-- In every other state none is (10_state.md R32). -/
  noTransfer : s.fsm ≠ .wait → s.inFlight = []
  /-- HANDLE, where it is valid, is the attached device (10_state.md R21). -/
  device : s.handleValid = true → s.device = some s.handle
  /-- Before INIT_BUS is answered the bus is not initialised (43_strip_driver.md R131). -/
  busDown : s.fsm = .initBus → s.busInit = false
  /-- From INIT_ATTACH on it is (43_strip_driver.md R127). -/
  busUp : s.busUp = true → s.busInit = true
  /-- CFG_ERROR is the state of a ConfigurationError (60_exceptions.md R144). -/
  config : s.fsm = .cfgError ↔ s.stkConfig = true

/-- HOST has a word presented (43_strip_driver.md R123). -/
def State.presents (s : State) : Bool :=
  match s.host with
  | .present _ :: _ => true
  | .idle :: _ | .reset :: _ | [] => false

/-- Quiescent: `STATE ∈ {READY, CFG_ERROR}` and HOST has no word presented (43_strip_driver.md
R136). -/
def State.quiescent (s : State) : Bool := s.cmdReady && !s.presents

/-- No error has been reported since reset (60_exceptions.md R141, R146). -/
def State.noError (s : State) : Bool :=
  !s.stkIllegal && !s.stkPrecond && !s.stkTransport && !s.stkConfig

/-- The platform reset is what HOST does next. -/
def State.resetNext (s : State) : Bool :=
  match s.host with
  | .reset :: _ => true
  | _ => false

/-- This step accepts a command word (43_strip_driver.md R123). -/
def State.acceptsNow (s : State) : Bool := s.presents && s.cmdReady

/-- How many responses are outstanding (10_state.md R33). -/
def State.outstanding (s : State) : Nat := if s.flushing then 1 else 0

/-- Every transition of the FSM but the platform reset's, holds and idle steps included
(43_strip_driver.md R133). -/
def Fsm.allowed : Fsm → Fsm → Bool
  | .initBus, .initAttach | .initBus, .cfgError | .initBus, .initBus => true
  | .initAttach, .initFill | .initAttach, .cfgError | .initAttach, .initAttach => true
  | .initFill, .ready => true
  | .ready, .ready | .ready, .submit => true
  | .submit, .wait | .submit, .ready | .submit, .submit => true
  | .wait, .wait | .wait, .ready => true
  | .cfgError, .cfgError => true
  | _, _ => false

/-- The state with the four sticky bits cleared. -/
def State.clearSticky (s : State) : State :=
  { s with stkIllegal := false, stkPrecond := false, stkTransport := false, stkConfig := false }

/-- The word BLOCK accepts in this step, if any (43_strip_driver.md R123). -/
def State.acceptedWord (s : State) : Option Word :=
  match s.host with
  | .present w :: _ => if s.cmdReady then some w else none
  | .idle :: _ | .reset :: _ | [] => none

/-- The two states agree on all BLOCK's next step may depend on (43_strip_driver.md R135): the
configuration, the registers, FB, the word accepted (if any), whether the platform reset is asserted,
and TRANSPORT's answer (if any), that is, of the next draw the one component the state's own step
asks for. -/
structure SameBlockInputs (s u : State) : Prop where
  cfg : s.cfg = u.cfg
  fsm : s.fsm = u.fsm
  handle : s.handle = u.handle
  pendId : s.pendId = u.pendId
  stkIllegal : s.stkIllegal = u.stkIllegal
  stkPrecond : s.stkPrecond = u.stkPrecond
  stkTransport : s.stkTransport = u.stkTransport
  stkConfig : s.stkConfig = u.stkConfig
  fb : s.fb = u.fb
  reset : s.resetNext = u.resetNext
  word : s.acceptedWord = u.acceptedWord
  initAnswer : s.resetNext = false → s.fsm = .initBus → s.nextDraw.init = u.nextDraw.init
  attachAnswer :
    s.resetNext = false → s.fsm = .initAttach → s.nextDraw.attach = u.nextDraw.attach
  submitAnswer : s.resetNext = false → s.fsm = .submit → s.nextDraw.submit = u.nextDraw.submit
  pollAnswer : s.resetNext = false → s.fsm = .wait → s.nextDraw.poll = u.nextDraw.poll

/-- The draws TRANSPORT will answer a FLUSH with: `held` steps without an answer to the submission,
the token `id`, `pending` unanswered polls, and DONE with `last`. -/
def flushScript (held pending : Nat) (id : XferId) (last : PollAnswer) : List Draw :=
  List.replicate held ⟨none, none, none, .pending, []⟩ ++
    [⟨none, none, some (.accept id), .pending, []⟩] ++
    List.replicate pending ⟨none, none, none, .pending, []⟩ ++
    [⟨none, none, none, last, []⟩]

end Sys2Proof.Machine
end

