-- ==== Sys2Proof/Certificates/Slice0/Obligations.lean ====
section
/-!
DEFINITION. The statements for the provers. Each docstring names the rule of spec/ it formalises.
Where a statement gives the whole next state, its clauses on `host`, `script`, `draws`, `responses`,
`requests` and `wires` are the model's own bookkeeping of HOST's acts, TRANSPORT's draws and what a run
shows (entries 3, 4, 10, 11), which the rule does not name. A statement whose clauses rest on another
entry names it in its docstring.
-/

open Sys2Proof Sys2Proof.Machine

/-! ## The pixel codec -/

/-- R77: BCODE on every integer percentage. -/
def Obligations.BrightnessCodeTable : Prop :=
  ∀ p : Int,
    (p ≤ 0 → bcode p = 0) ∧
    (1 ≤ p → p ≤ 8 → bcode p = 1) ∧
    (9 ≤ p → p ≤ 99 → (bcode p : Int) = (p - 7) / 3) ∧
    (100 ≤ p → bcode p = 31)

/-- R78: the 256 entries of the look-up table. -/
def Obligations.BrightnessLutEntries : Prop :=
  ∀ bri : Byte,
    (bri.toNat = 0 → brightnessLut bri = 0) ∧
    (1 ≤ bri.toNat → bri.toNat ≤ 8 → brightnessLut bri = 1) ∧
    (bri.toNat = 9 → brightnessLut bri = 0) ∧
    (∀ c, 1 ≤ c → c ≤ 30 → 3 * c + 7 ≤ bri.toNat → bri.toNat ≤ 3 * c + 9 → brightnessLut bri = c) ∧
    (100 ≤ bri.toNat → brightnessLut bri = 31)

/-- R81: BCODE is non-decreasing but for the one step from 8 to 9, and it saturates. -/
def Obligations.BrightnessCodeDropsOnlyAtNine : Prop :=
  (∀ p q : Int, p ≤ q → q ≤ 8 → bcode p ≤ bcode q) ∧
  (∀ p q : Int, 9 ≤ p → p ≤ q → bcode p ≤ bcode q) ∧
  bcode 8 = 1 ∧ bcode 9 = 0 ∧
  (∀ p : Int, 100 ≤ p → bcode p = 31) ∧
  (∀ p : Int, p ≤ 0 → bcode p = 0)

/-- R57, R80: every header byte has the marker `111` and its code, and every byte from 0xE0 on is the
header of exactly one code. -/
def Obligations.HeaderByteHoldsMarkerAndCode : Prop :=
  (∀ (r g b : Byte) (p : Int), ∃ h : Byte,
    (encodePixel r g b p)[0]? = some h ∧ h.extractLsb' 5 3 = 0b111#3 ∧
      (h.extractLsb' 0 5).toNat = bcode p ∧ bcode p ≤ 31 ∧ 0xE0 ≤ h.toNat) ∧
  (∀ h : Byte, 0xE0 ≤ h.toNat →
    ∃ c, c ≤ 31 ∧ headerByte c = h ∧ ∀ c', c' ≤ 31 → headerByte c' = h → c' = c)

/-- R79, R83: the order of the pixel word's bytes, and the default pixel; R58: its 32-bit view, byte 0
most significant. -/
def Obligations.PixelWordByteOrder : Prop :=
  (∀ (r g b : Byte) (p : Int),
    encodePixel r g b p = [0xE0#8 ||| BitVec.ofNat 8 (bcode p), b, g, r]) ∧
  encodePixel 255 0 0 50 = [0xEE#8, 0x00#8, 0x00#8, 0xFF#8] ∧
  defaultPixel = [0xE1#8, 0x00#8, 0x00#8, 0x00#8] ∧ defaultPixel = encodePixel 0 0 0 3 ∧
  ∀ (code : BitVec 5) (b g r : Byte),
    (pixelWord32 code b g r).extractLsb' 29 3 = 0b111#3 ∧
    (pixelWord32 code b g r).extractLsb' 24 5 = code ∧
    (pixelWord32 code b g r).extractLsb' 16 8 = b ∧
    (pixelWord32 code b g r).extractLsb' 8 8 = g ∧
    (pixelWord32 code b g r).extractLsb' 0 8 = r ∧
    (pixelWord32 code b g r).extractLsb' 24 8 = headerByte code.toNat

/-! ## The layout -/

/-- R85: `PAD` is the least number of 16-pixel groups plus one, and `L` the sum of the segments; R9:
the largest frame. -/
def Obligations.FrameLengthFormula : Prop :=
  (∀ n, n ≤ 16 * (padLen n - 1) ∧ (∀ m, n ≤ 16 * m → padLen n - 1 ≤ m) ∧ 1 ≤ padLen n ∧
    frameLen n = 4 + 4 * n + 4 + padLen n) ∧
  padLen 65535 = 4097 ∧ frameLen 65535 = 266245 ∧ frameLen 65535 < 2 ^ 24 ∧
  (frameLen 1 = 14 ∧ frameLen 3 = 22 ∧ frameLen 16 = 74 ∧ frameLen 17 = 79 ∧ frameLen 512 = 2089)

/-- R39: the segment of every offset; pixel `i`'s byte `j` stands at `4+4*i+j`. -/
def Obligations.SegmentsOfTheFrame : Prop :=
  ∀ n k,
    (k < 4 → segmentOf n k = .start) ∧
    (4 ≤ k → k < 4 + 4 * n → segmentOf n k = .pixel ((k - 4) / 4) ((k - 4) % 4)) ∧
    (4 + 4 * n ≤ k → k < 8 + 4 * n → segmentOf n k = .reset) ∧
    (8 + 4 * n ≤ k → k < frameLen n → segmentOf n k = .padding) ∧
    (frameLen n ≤ k → segmentOf n k = .out) ∧
    (∀ i j, i < n → j < 4 → segmentOf n (4 + 4 * i + j) = .pixel i j)

/-- R89: the default frame, byte by byte. -/
def Obligations.DefaultFrameBytes : Prop :=
  ∀ n,
    (defaultFrame n).length = frameLen n ∧
    ∀ k, k < frameLen n →
      ((segmentOf n k).isZero = true → (defaultFrame n)[k]? = some 0x00#8) ∧
      (∀ i j, segmentOf n k = .pixel i j →
        (defaultFrame n)[k]? = some (if j = 0 then 0xE1#8 else 0x00#8))

/-- R106: `len_bits` is `8 * L`, and it fits. -/
def Obligations.SubmittedLengthIsExact : Prop :=
  (∀ n, 1 ≤ n → n ≤ 65535 → (lenBits n).toNat = 8 * frameLen n) ∧
  lenBits 3 = 176#32 ∧ lenBits 512 = 16712#32

/-- R170: the clock edges after the last pixel exceed N/2. -/
def Obligations.PaddingGivesEnoughClocks : Prop :=
  ∀ n, n + 80 ≤ 2 * (8 * (4 + padLen n)) ∧ n < 2 * (8 * (4 + padLen n))

/-- R8: configurations outside the legal values are refused when the block is built, the others give
the reset state. -/
def Obligations.IllegalConfigurationHasNoBlock : Prop :=
  ∀ c : Config,
    ((c.n = 0 ∨ 65535 < c.n ∨ c.queueDepth ≠ 1) → State.build c = none) ∧
    ((1 ≤ c.n ∧ c.n ≤ 65535 ∧ c.queueDepth = 1) → State.build c = some (State.resetOf c))

/-! ## Encoding -/

/-- R62 to R66: decoding an encoded command gives it back, with every field at every value. -/
def Obligations.DecodeInvertsEncode : Prop :=
  ∀ i : Instr, i.wellFormed = true → decode (encode i) = .command i

/-- R69: a word that decodes to a command is that command's word, so no bit of it is dropped. -/
def Obligations.EncodeInvertsDecode : Prop :=
  ∀ (w : Word) (i : Instr), decode w = .command i → encode i = w

/-- R69: the four patterns and their fields; every other word is ILLEGAL. -/
def Obligations.DecodeFollowsThePatterns : Prop :=
  ∀ w : Word,
    (w &&& 0xFF000000000000FF#64 = 0x1000000000000000#64 →
      decode w = .command (.setPixel (w.extractLsb' 40 16) (w.extractLsb' 32 8)
        (w.extractLsb' 24 8) (w.extractLsb' 16 8) (w.extractLsb' 8 8))) ∧
    (w = 0x2000000000000000#64 → decode w = .command .flush) ∧
    (w &&& 0xFFFFFFFFFF000000#64 = 0x3000000000000000#64 →
      decode w = .command (.readByte (w.extractLsb' 0 24))) ∧
    (w = 0x4000000000000000#64 → decode w = .command .getLength) ∧
    (w &&& 0xFF000000000000FF#64 ≠ 0x1000000000000000#64 → w ≠ 0x2000000000000000#64 →
      w &&& 0xFFFFFFFFFF000000#64 ≠ 0x3000000000000000#64 → w ≠ 0x4000000000000000#64 →
      ∃ reason, decode w = .illegal reason)

/-- R67, R68: a reserved opcode selects no command, and a defined opcode with a reserved bit set is
illegal. -/
def Obligations.ReservedWordsAreIllegal : Prop :=
  ∀ w : Word,
    ((w.extractLsb' 60 4 = 0x0#4 ∨ 5 ≤ (w.extractLsb' 60 4).toNat) →
      decode w = .illegal .reservedOpcode) ∧
    (w.extractLsb' 60 4 = 0x1#4 → (w.extractLsb' 56 4 ≠ 0#4 ∨ w.extractLsb' 0 8 ≠ 0#8) →
      decode w = .illegal .reservedBits) ∧
    ((w.extractLsb' 60 4 = 0x2#4 ∨ w.extractLsb' 60 4 = 0x4#4) → w.extractLsb' 0 60 ≠ 0#60 →
      decode w = .illegal .reservedBits) ∧
    (w.extractLsb' 60 4 = 0x3#4 → w.extractLsb' 24 36 ≠ 0#36 → decode w = .illegal .reservedBits)

/-- R62 to R65: words written out from the formats. -/
def Obligations.SampleWordsDecode : Prop :=
  decode 0x100001FF00003200#64 = .command (.setPixel 1 255 0 0 50) ∧
  decode 0x10FFFFFFFFFFFF00#64 = .command (.setPixel 65535 255 255 255 255) ∧
  decode 0x2000000000000000#64 = .command .flush ∧
  decode 0x3000000000000008#64 = .command (.readByte 8) ∧
  decode 0x3000000000FFFFFF#64 = .command (.readByte 16777215) ∧
  decode 0x4000000000000000#64 = .command .getLength

/-- R75, R76: a parsed line whose numbers fit the fields (the bounds of R75) has the one word that
decodes to its command with exactly these numbers, and one with a number that does not fit is
refused. -/
def Obligations.AssembledLinesDecodeToTheirCommand : Prop :=
  (∀ idx red green blue bri,
    (idx < 2 ^ 16 → red < 256 → green < 256 → blue < 256 → bri < 2 ^ 8 →
      ∃ (w : Word) (i : BitVec 16) (r g b p : Byte),
        assemble (.setPixel idx red green blue bri) = some w ∧
        decode w = .command (.setPixel i r g b p) ∧
        i.toNat = idx ∧ r.toNat = red ∧ g.toNat = green ∧ b.toNat = blue ∧ p.toNat = bri) ∧
    ((2 ^ 16 ≤ idx ∨ 256 ≤ red ∨ 256 ≤ green ∨ 256 ≤ blue ∨ 2 ^ 8 ≤ bri) →
      assemble (.setPixel idx red green blue bri) = none)) ∧
  (∀ off,
    (off < 2 ^ 24 →
      ∃ (w : Word) (o : BitVec 24), assemble (.readByte off) = some w ∧
        decode w = .command (.readByte o) ∧ o.toNat = off) ∧
    (2 ^ 24 ≤ off → assemble (.readByte off) = none)) ∧
  (∃ w, assemble .flush = some w ∧ decode w = .command .flush) ∧
  (∃ w, assemble .getLength = some w ∧ decode w = .command .getLength) ∧
  (∀ v,
    (v < 2 ^ 64 → ∃ w : Word, assemble (.word v) = some w ∧ w.toNat = v) ∧
    (2 ^ 64 ≤ v → assemble (.word v) = none)) ∧
  (∀ l : AsmLine, l.fits = true ↔ ∃ w, assemble l = some w)

/-! ## Commands in READY -/

/-- R90, R92: SET_PIXEL with `IDX < N` writes the pixel word at `4+4*IDX`, answers OK, and changes
nothing else. -/
def Obligations.SetPixelWritesItsPixelWord : Prop :=
  ∀ (s : State) (idx : BitVec 16) (r g b bri : Byte),
    s.fsm = .ready → idx.toNat < s.cfg.n →
    ∃ t, exec (.setPixel idx r g b bri) s = .next t ∧
      t = { s with
        host := s.host.tail
        fb := t.fb
        responses := s.responses ++ [⟨0#3, 0#32⟩] } ∧
      t.fb.read (4 + 4 * idx.toNat) = some (0xE0#8 ||| BitVec.ofNat 8 (bcode bri.toNat)) ∧
      t.fb.read (4 + 4 * idx.toNat + 1) = some b ∧
      t.fb.read (4 + 4 * idx.toNat + 2) = some g ∧
      t.fb.read (4 + 4 * idx.toNat + 3) = some r ∧
      ∀ k, ¬(4 + 4 * idx.toNat ≤ k ∧ k < 4 + 4 * idx.toNat + 4) → t.fb.read k = s.fb.read k

/-- R91: SET_PIXEL with `IDX ≥ N`. -/
def Obligations.SetPixelOutOfRange : Prop :=
  ∀ (s : State) (idx : BitVec 16) (r g b bri : Byte),
    s.fsm = .ready → s.cfg.n ≤ idx.toNat →
    exec (.setPixel idx r g b bri) s = .next
      { s with
        host := s.host.tail
        stkPrecond := true
        responses := s.responses ++ [⟨2#3, 0#32⟩] }

/-- R93: a repeated SET_PIXEL leaves FB as one does, and of two to the same index the last wins. -/
def Obligations.SetPixelIdempotentLastWins : Prop :=
  ∀ (s t u : State) (idx : BitVec 16) (r g b bri r' g' b' bri' : Byte),
    exec (.setPixel idx r g b bri) s = .next t →
    (exec (.setPixel idx r g b bri) t = .next u → ∀ k, u.fb.read k = t.fb.read k) ∧
    (∀ v, exec (.setPixel idx r' g' b' bri') t = .next u →
      exec (.setPixel idx r' g' b' bri') s = .next v → ∀ k, u.fb.read k = v.fb.read k)

/-- R94: READ_BYTE with `OFF < L` answers the byte, zero-extended, and changes nothing else. -/
def Obligations.ReadByteAnswersTheByte : Prop :=
  ∀ (s : State) (off : BitVec 24) (b : Byte),
    s.fsm = .ready → off.toNat < frameLen s.cfg.n → s.fb.read off.toNat = some b →
    exec (.readByte off) s = .next
      { s with
        host := s.host.tail
        responses := s.responses ++ [⟨0#3, b.setWidth 32⟩] }

/-- R95: READ_BYTE with `OFF ≥ L`. -/
def Obligations.ReadByteOutOfRange : Prop :=
  ∀ (s : State) (off : BitVec 24),
    s.fsm = .ready → frameLen s.cfg.n ≤ off.toNat →
    exec (.readByte off) s = .next
      { s with
        host := s.host.tail
        stkPrecond := true
        responses := s.responses ++ [⟨2#3, 0#32⟩] }

/-- R35 (entry 7: the model represents an unspecified byte as "no value"): READ_BYTE of such a byte is
a model fault. -/
def Obligations.ReadByteOfNoValueFaults : Prop :=
  ∀ (s : State) (off : BitVec 24),
    s.fsm = .ready → off.toNat < frameLen s.cfg.n → s.fb.read off.toNat = none →
    exec (.readByte off) s = .fault (.unfilledByte off.toNat)

/-- R96: GET_LENGTH answers N and changes nothing else. -/
def Obligations.GetLengthAnswersN : Prop :=
  ∀ s : State, s.fsm = .ready → s.cfg.legal = true →
    ∃ d : BitVec 32, d.toNat = s.cfg.n ∧
      exec .getLength s = .next
        { s with
          host := s.host.tail
          responses := s.responses ++ [⟨0#3, d⟩] }

/-- R110: the accepting step of FLUSH writes STATE and emits no response. -/
def Obligations.FlushEntersSubmit : Prop :=
  ∀ s : State, s.fsm = .ready →
    exec .flush s = .next { s with host := s.host.tail, fsm := .submit }

/-- R167 (read after write): READ_BYTE right after SET_PIXEL to the same pixel answers the new byte. -/
def Obligations.ReadByteSeesSetPixel : Prop :=
  ∀ (s t : State) (idx : BitVec 16) (r g b bri : Byte) (off : BitVec 24) (j : Nat) (v : Byte),
    s.fsm = .ready → idx.toNat < s.cfg.n → exec (.setPixel idx r g b bri) s = .next t →
    j < 4 → off.toNat = 4 + 4 * idx.toNat + j → (encodePixel r g b bri.toNat)[j]? = some v →
    exec (.readByte off) t = .next
      { t with
        host := t.host.tail
        responses := t.responses ++ [⟨0#3, v.setWidth 32⟩] }

/-! ## Frames -/

/-- The frame of SET_PIXEL: everything but its four bytes, `STK_PRECOND`, the response and HOST's
word is unchanged. The address is the one the meaning stores at, `pixelOffset idx`. -/
def Obligations.SetPixelFrame : Prop :=
  ∀ (s t : State) (idx : BitVec 16) (r g b bri : Byte),
    exec (.setPixel idx r g b bri) s = .next t →
    t = { s with
      host := t.host
      stkPrecond := t.stkPrecond
      fb := t.fb
      responses := t.responses } ∧
    (s.stkPrecond = true → t.stkPrecond = true) ∧
    (t.host = s.host ∨ t.host = s.host.tail) ∧
    (∃ rs, t.responses = s.responses ++ rs) ∧
    (∀ k, ¬(pixelOffset idx ≤ k ∧ k < pixelOffset idx + 4) → t.fb.read k = s.fb.read k) ∧
    (¬(s.fsm = .ready ∧ idx.toNat < s.cfg.n) → ∀ k, t.fb.read k = s.fb.read k)

/-- The frames of the commands that store nothing: FLUSH may change STATE, READ_BYTE `STK_PRECOND`,
GET_LENGTH neither; beside HOST's word and the response nothing else changes, and every byte of FB
reads as before. -/
def Obligations.NonStoringCommandsFrame : Prop :=
  ∀ s t : State,
    (exec .flush s = .next t →
      t = { s with host := t.host, fsm := t.fsm, responses := t.responses } ∧
      (t.fsm = s.fsm ∨ (s.fsm = .ready ∧ t.fsm = .submit)) ∧
      ∀ k, t.fb.read k = s.fb.read k) ∧
    (∀ off, exec (.readByte off) s = .next t →
      t = { s with host := t.host, stkPrecond := t.stkPrecond, responses := t.responses } ∧
      (s.stkPrecond = true → t.stkPrecond = true) ∧
      ∀ k, t.fb.read k = s.fb.read k) ∧
    (exec .getLength s = .next t →
      t = { s with host := t.host, responses := t.responses } ∧
      ∀ k, t.fb.read k = s.fb.read k)

/-! ## The command port -/

/-- A step that accepts a word which decodes to a command is `exec` of that command; the handshake is
part of every meaning. -/
def Obligations.StepRunsTheDecodedCommand : Prop :=
  ∀ (s : State) (w : Word) (rest : List HostEvent) (i : Instr),
    s.host = .present w :: rest → s.cmdReady = true → decode w = .command i → i.wellFormed = true →
    step s = exec i s

/-- R125: an illegal word in READY. -/
def Obligations.IllegalWordInReady : Prop :=
  ∀ (s : State) (w : Word) (rest : List HostEvent) (reason : IllegalReason),
    s.host = .present w :: rest → s.fsm = .ready → decode w = .illegal reason →
    step s = .next
      { s with
        host := rest
        stkIllegal := true
        responses := s.responses ++ [⟨1#3, 0#32⟩] }

/-- R124: in CFG_ERROR every accepted word, legal or not, is answered ERR_CONFIG and changes no
state. -/
def Obligations.CfgErrorAnswersEveryWord : Prop :=
  ∀ (s : State) (w : Word) (rest : List HostEvent),
    s.host = .present w :: rest → s.fsm = .cfgError →
    step s = .next
      { s with
        host := rest
        responses := s.responses ++ [⟨5#3, 0#32⟩] }

/-- R27, R123: when `cmd_ready` is 1, and that a presented word stays with HOST while it is 0. The
clause that `exec` of a command then leaves the state as it is, is the model's choice of a meaning for a
dispatch step that is not taken (entry 12). -/
def Obligations.BusyPortHoldsTheWord : Prop :=
  (∀ s : State, s.cmdReady = true ↔ (s.fsm = .ready ∨ s.fsm = .cfgError)) ∧
  (∀ (s : State) (i : Instr), s.cmdReady = false → exec i s = .next s) ∧
  (∀ (s t : State) (w : Word) (rest : List HostEvent),
    s.host = .present w :: rest → s.cmdReady = false → step s = .next t → t.host = s.host)

/-- R136: what a quiescent state is; it has no transfer in flight (under the invariant) and no
response outstanding. Where no platform reset is asserted its step changes nothing but that an idle
act of HOST is over, and once HOST has done its last act the step changes nothing at all. -/
def Obligations.QuiescentStateStays : Prop :=
  ∀ s : State,
    (s.quiescent = true ↔
      (s.fsm = .ready ∨ s.fsm = .cfgError) ∧ ∀ w rest, s.host ≠ .present w :: rest) ∧
    (s.quiescent = true →
      s.outstanding = 0 ∧ (s.Inv → s.inFlight = []) ∧
      (s.resetNext = false → step s = .next { s with host := dropIdle s.host }) ∧
      (s.host = [] → step s = .next s))

/-- R71: every accepted word gets exactly one response, FLUSH's when STATE returns to READY; no step
emits two, and no response is taken back. -/
def Obligations.OneResponsePerAcceptedWord : Prop :=
  ∀ s t : State, step s = .next t → s.resetNext = false →
    t.responses.length + t.outstanding =
      s.responses.length + s.outstanding + (if s.acceptsNow then 1 else 0) ∧
    ∃ rs, rs.length ≤ 1 ∧ t.responses = s.responses ++ rs

/-! ## Initialisation -/

/-- R127: the INIT_BUS step, and the hold while TRANSPORT has no answer (R105). That an INIT_ERR leaves
the bus not initialised (entry 17), and HANDLE and PEND_ID as they were on entering CFG_ERROR
(entry 16), is the model's choice. -/
def Obligations.InitBusStepOutcomes : Prop :=
  ∀ s : State, s.fsm = .initBus → s.resetNext = false →
    (s.nextDraw.init = none → step s = .next
      { s with
        host := dropIdle s.host
        script := s.script.tail
        draws := s.draws + 1 }) ∧
    (s.nextDraw.init = some .initOk → step s = .next
      { s with
        host := dropIdle s.host
        script := s.script.tail
        draws := s.draws + 1
        requests := s.requests ++
          [.init s.cfg.busId ⟨s.cfg.dataPin, s.cfg.clkPin, s.cfg.maxXfer⟩ s.cfg.dmaCh]
        busInit := true
        fsm := .initAttach }) ∧
    (s.nextDraw.init = some .initErr → step s = .next
      { s with
        host := dropIdle s.host
        script := s.script.tail
        draws := s.draws + 1
        requests := s.requests ++
          [.init s.cfg.busId ⟨s.cfg.dataPin, s.cfg.clkPin, s.cfg.maxXfer⟩ s.cfg.dmaCh]
        fsm := .cfgError
        stkConfig := true })

/-- R128, R129: the INIT_ATTACH step, and the hold while TRANSPORT has no answer (R105). That an
ATTACH_ERR leaves HANDLE and PEND_ID as they were on entering CFG_ERROR (entry 16), and the record of
the attached device (entry 17), is the model's choice. -/
def Obligations.InitAttachStepOutcomes : Prop :=
  ∀ s : State, s.fsm = .initAttach → s.resetNext = false →
    (s.nextDraw.attach = none → step s = .next
      { s with
        host := dropIdle s.host
        script := s.script.tail
        draws := s.draws + 1 }) ∧
    (∀ h, s.nextDraw.attach = some (.attachOk h) → step s = .next
      { s with
        host := dropIdle s.host
        script := s.script.tail
        draws := s.draws + 1
        requests := s.requests ++
          [.attach s.cfg.busId ⟨s.cfg.clockHz, 3, none, s.cfg.queueDepth⟩]
        handle := h
        device := some h
        fsm := .initFill }) ∧
    (s.nextDraw.attach = some .attachErr → step s = .next
      { s with
        host := dropIdle s.host
        script := s.script.tail
        draws := s.draws + 1
        requests := s.requests ++
          [.attach s.cfg.busId ⟨s.cfg.clockHz, 3, none, s.cfg.queueDepth⟩]
        fsm := .cfgError
        stkConfig := true })

/-- R130: the INIT_FILL step writes the default frame to every byte below `L` and nothing else. -/
def Obligations.InitFillWritesTheDefaultFrame : Prop :=
  ∀ s : State, s.fsm = .initFill → s.resetNext = false →
    ∃ t, step s = .next t ∧
      t = { s with host := dropIdle s.host, fb := t.fb, fsm := .ready } ∧
      (∀ k, k < frameLen s.cfg.n →
        ((segmentOf s.cfg.n k).isZero = true → t.fb.read k = some 0x00#8) ∧
        (∀ i j, segmentOf s.cfg.n k = .pixel i j →
          t.fb.read k = some (if j = 0 then 0xE1#8 else 0x00#8))) ∧
      (∀ k, frameLen s.cfg.n ≤ k → t.fb.read k = s.fb.read k)

/-- R163: the boot order, for every legal configuration and every transport that attaches a device. -/
def Obligations.BootReachesReady : Prop :=
  ∀ (c : Config) (h : Handle) (d1 d2 : Draw) (later : List Draw),
    c.legal = true → d1.init = some .initOk → d2.attach = some (.attachOk h) →
    ∃ t1 t2 t3,
      step { State.resetOf c with script := d1 :: d2 :: later } = .next t1 ∧ t1.fsm = .initAttach ∧
      step t1 = .next t2 ∧ t2.fsm = .initFill ∧
      step t2 = .next t3 ∧ t3.fsm = .ready ∧ t3.handle = h ∧ t3.status = 0x0003#16 ∧
      t3.responses = [] ∧ ∀ k, k < frameLen c.n → t3.fb.read k = (defaultFrame c.n)[k]?

/-! ## The transfer queue -/

/-- R111, R112: the SUBMIT step, and the hold while TRANSPORT has no answer (R105). -/
def Obligations.SubmitStepOutcomes : Prop :=
  ∀ s : State, s.fsm = .submit → s.resetNext = false →
    (s.nextDraw.submit = none → step s = .next
      { s with
        host := dropIdle s.host
        script := s.script.tail
        draws := s.draws + 1 }) ∧
    (∀ id, s.nextDraw.submit = some (.accept id) → step s = .next
      { s with
        host := dropIdle s.host
        script := s.script.tail
        draws := s.draws + 1
        requests := s.requests ++ [.submit s.handle s.cfg.fbBase (lenBits s.cfg.n)]
        pendId := id
        inFlight := s.inFlight ++ [⟨s.handle, id, s.cfg.fbBase, lenBits s.cfg.n⟩]
        fsm := .wait }) ∧
    (s.nextDraw.submit = some .reject → ∃ t, step s = .next t ∧
      t = { s with
        host := dropIdle s.host
        script := s.script.tail
        draws := s.draws + 1
        requests := s.requests ++ [.submit s.handle s.cfg.fbBase (lenBits s.cfg.n)]
        wires := t.wires
        fsm := .ready
        stkTransport := true
        responses := s.responses ++ [⟨3#3, 0#32⟩] })

/-- R113: a PENDING answer leaves every register, FB and STATUS unchanged and emits no response. -/
def Obligations.PendingPollChangesNothing : Prop :=
  ∀ s : State, s.fsm = .wait → s.resetNext = false → s.nextDraw.poll = .pending →
    ∃ t, step s = .next t ∧ t.status = s.status ∧
      t = { s with
        host := dropIdle s.host
        script := s.script.tail
        draws := s.draws + 1
        requests := s.requests ++ [.poll s.handle s.pendId] }

/-- R114: DONE_OK answers the FLUSH with OK, and the transfer's wire stream is FB's (R118). That the
stream is taken from FB in this step (entry 19), and that PEND_ID, no longer valid, keeps its value
(entry 16), is the model's choice. -/
def Obligations.DoneOkAnswersTheFlush : Prop :=
  ∀ (s : State) (bytes : List Byte),
    s.fsm = .wait → s.resetNext = false → s.nextDraw.poll = .doneOk →
    s.memRead 0 (frameLen s.cfg.n) = some bytes →
    step s = .next
      { s with
        host := dropIdle s.host
        script := s.script.tail
        draws := s.draws + 1
        requests := s.requests ++ [.poll s.handle s.pendId]
        wires := s.wires ++ [⟨true, wireBits bytes⟩]
        inFlight := s.inFlight.eraseP (fun x => decide (x.id = s.pendId))
        fsm := .ready
        responses := s.responses ++ [⟨0#3, 0#32⟩] }

/-- R115: DONE_ERR under each STATUS_POLICY. That one record marked not ok is made of the transfer's
wire content, of whose bits nothing is said (R121; entry 13), and that PEND_ID, no longer valid, keeps
its value (entry 16), is the model's choice. -/
def Obligations.DoneErrFollowsThePolicy : Prop :=
  ∀ s : State, s.fsm = .wait → s.resetNext = false → s.nextDraw.poll = .doneErr →
    (s.cfg.statusPolicy = .surface → ∃ t bits, step s = .next t ∧
      t = { s with
        host := dropIdle s.host
        script := s.script.tail
        draws := s.draws + 1
        requests := s.requests ++ [.poll s.handle s.pendId]
        wires := s.wires ++ [⟨false, bits⟩]
        inFlight := s.inFlight.eraseP (fun x => decide (x.id = s.pendId))
        fsm := .ready
        stkTransport := true
        responses := s.responses ++ [⟨4#3, 0#32⟩] }) ∧
    (s.cfg.statusPolicy = .discard → ∃ t bits, step s = .next t ∧
      t = { s with
        host := dropIdle s.host
        script := s.script.tail
        draws := s.draws + 1
        requests := s.requests ++ [.poll s.handle s.pendId]
        wires := s.wires ++ [⟨false, bits⟩]
        inFlight := s.inFlight.eraseP (fun x => decide (x.id = s.pendId))
        fsm := .ready
        responses := s.responses ++ [⟨0#3, 0#32⟩] })

/-- R109: while `STATE ∈ {SUBMIT, WAIT}` no step writes FB. -/
def Obligations.NoStepWritesTheFrameInFlight : Prop :=
  ∀ s t : State, (s.fsm = .submit ∨ s.fsm = .wait) → s.resetNext = false → step s = .next t →
    ∀ k, t.fb.read k = s.fb.read k

/-- R118: the wire stream of a frame, bit by bit. -/
def Obligations.WireStreamBitOrder : Prop :=
  ∀ bytes : List Byte,
    (wireBits bytes).length = 8 * bytes.length ∧
    ∀ k j, j < 8 → ∀ b, bytes[k]? = some b →
      (wireBits bytes)[8 * k + j]? = some (b.getLsbD (7 - j))

/-- R51, R118, R169: a FLUSH accepted in READY, then `held` steps without an answer to the
submission, `pending` unanswered polls and DONE_OK: it is answered in the step of the DONE answer and
not before, after `pending + 1` polls, and the wire stream is that of FB as it stood when the FLUSH
was accepted. HOST has done its last act or holds its next word all the while; idle acts and resets of
HOST are left out. -/
def Obligations.FlushTransmitsTheAcceptedFrame : Prop :=
  ∀ (s : State) (rest : List HostEvent) (held pending : Nat) (id : XferId) (later : List Draw),
    s.Inv → s.fsm = .ready → s.host = .present 0x2000000000000000#64 :: rest →
    (rest = [] ∨ ∃ w r, rest = .present w :: r) →
    s.script = flushScript held pending id .doneOk ++ later →
    ∃ bytes t,
      s.memRead 0 (frameLen s.cfg.n) = some bytes ∧ bytes.length = frameLen s.cfg.n ∧
      Host.Core.run Sys2Proof.core (held + pending + 3) s = .next t ∧
      t.fsm = .ready ∧ t.host = rest ∧ t.script = later ∧
      (∀ k, t.fb.read k = s.fb.read k) ∧
      t.responses = s.responses ++ [⟨0#3, 0#32⟩] ∧
      t.wires = s.wires ++ [⟨true, wireBits bytes⟩] ∧
      t.requests = s.requests ++ [.submit s.handle s.cfg.fbBase (lenBits s.cfg.n)] ++
        List.replicate (pending + 1) (.poll s.handle id) ∧
      ∀ m, m < held + pending + 3 →
        ∃ u, Host.Core.run Sys2Proof.core m s = .next u ∧ u.responses = s.responses

/-- R116: while TRANSPORT does not answer, BLOCK stays in SUBMIT or WAIT, `cmd_ready` stays 0 and the
FLUSH has no response, for any number of steps. -/
def Obligations.UnansweredFlushHangs : Prop :=
  ∀ (k : Nat) (s : State), k ≤ s.script.length → (∀ e ∈ s.host, e ≠ .reset) →
    (s.fsm = .submit → (∀ d ∈ s.script.take k, d.submit = none) →
      ∃ t, Host.Core.run Sys2Proof.core k s = .next t ∧ t.fsm = .submit ∧ t.cmdReady = false ∧
        t.responses = s.responses) ∧
    (s.fsm = .wait → (∀ d ∈ s.script.take k, d.poll = .pending) →
      ∃ t, Host.Core.run Sys2Proof.core k s = .next t ∧ t.fsm = .wait ∧ t.cmdReady = false ∧
        t.responses = s.responses)

/-! ## Reset, STATUS and the sticky bits -/

/-- R34: the reset values the spec gives, for every configuration. That `State.reset` is the reset state
of the default configuration is the model's choice (entry 2). -/
def Obligations.ResetValues : Prop :=
  State.reset = State.resetOf Config.default ∧
  ∀ c : Config,
    (State.resetOf c).fsm = .initBus ∧
    (State.resetOf c).stkIllegal = false ∧ (State.resetOf c).stkPrecond = false ∧
    (State.resetOf c).stkTransport = false ∧ (State.resetOf c).stkConfig = false ∧
    (State.resetOf c).status = 0x0008#16 ∧ (State.resetOf c).cmdReady = false

/-- R158: the platform reset, asserted in any state, resets BLOCK and TRANSPORT together. -/
def Obligations.PlatformResetFromAnyState : Prop :=
  ∀ (s : State) (rest : List HostEvent), s.host = .reset :: rest →
    ∃ t, step s = .next t ∧
      t.cfg = s.cfg ∧ t.fsm = .initBus ∧ t.stkIllegal = false ∧ t.stkPrecond = false ∧
      t.stkTransport = false ∧ t.stkConfig = false ∧ t.status = 0x0008#16 ∧ t.cmdReady = false ∧
      t.busInit = false ∧ t.device = none ∧ t.inFlight = [] ∧ t.host = rest ∧
      t.responses = s.responses

/-- R25: the fields of STATUS, with the codes of STATE that R20 lists. -/
def Obligations.StatusFields : Prop :=
  ∀ s : State,
    (s.fsm = .initBus → s.status.extractLsb' 0 3 = 0#3) ∧
    (s.fsm = .initAttach → s.status.extractLsb' 0 3 = 1#3) ∧
    (s.fsm = .initFill → s.status.extractLsb' 0 3 = 2#3) ∧
    (s.fsm = .ready → s.status.extractLsb' 0 3 = 3#3) ∧
    (s.fsm = .submit → s.status.extractLsb' 0 3 = 4#3) ∧
    (s.fsm = .wait → s.status.extractLsb' 0 3 = 5#3) ∧
    (s.fsm = .cfgError → s.status.extractLsb' 0 3 = 6#3) ∧
    s.status.extractLsb' 0 3 = s.fsm.code ∧
    s.status.getLsbD 3 = (!s.cmdReady) ∧
    (s.status.getLsbD 3 = true ↔
      (s.fsm = .initBus ∨ s.fsm = .initAttach ∨ s.fsm = .initFill ∨ s.fsm = .submit ∨
        s.fsm = .wait)) ∧
    (s.status.getLsbD 4 = true ↔ s.fsm = .wait) ∧
    s.status.extractLsb' 5 3 = 0#3 ∧
    s.status.getLsbD 8 = s.stkIllegal ∧ s.status.getLsbD 9 = s.stkPrecond ∧
    s.status.getLsbD 10 = s.stkTransport ∧ s.status.getLsbD 11 = s.stkConfig ∧
    s.status.extractLsb' 12 4 = 0#4

/-- R146: a sticky bit, once set, stays set until the next platform reset, which clears it. -/
def Obligations.StickyBitsStayUntilReset : Prop :=
  ∀ s t : State, step s = .next t →
    (s.resetNext = false →
      (s.stkIllegal = true → t.stkIllegal = true) ∧ (s.stkPrecond = true → t.stkPrecond = true) ∧
      (s.stkTransport = true → t.stkTransport = true) ∧
      (s.stkConfig = true → t.stkConfig = true)) ∧
    (s.resetNext = true →
      t.stkIllegal = false ∧ t.stkPrecond = false ∧ t.stkTransport = false ∧ t.stkConfig = false)

/-- R24: no command reads the sticky bits, and nothing a step does depends on them. -/
def Obligations.NothingDependsOnStickyBits : Prop :=
  ∀ s : State,
    (∀ t, step s = .next t →
      ∃ t', step s.clearSticky = .next t' ∧ t'.clearSticky = t.clearSticky) ∧
    (∀ f, step s = .fault f → step s.clearSticky = .fault f)

/-! ## Whole-machine rules -/

/-- R36: no step changes the configuration. -/
def Obligations.ConfigurationNeverChanges : Prop :=
  ∀ s t : State, step s = .next t → t.cfg = s.cfg

/-- The FSM has no transition but those of 43_strip_driver.md section 3. -/
def Obligations.NoOtherTransition : Prop :=
  ∀ s t : State, step s = .next t →
    (s.resetNext = false → Fsm.allowed s.fsm t.fsm = true) ∧
    (s.resetNext = true → t.fsm = .initBus) ∧
    (∀ f : Fsm, f.code ≠ 7#3)

/-- R132: CFG_ERROR is terminal until reset, no request is sent in it, and it reads no FB byte: the
step is the same whatever FB holds. -/
def Obligations.CfgErrorIsTerminal : Prop :=
  ∀ (s : State) (m : Memory), s.fsm = .cfgError → s.resetNext = false →
    ∃ t, step s = .next t ∧ t.fsm = .cfgError ∧ t.requests = s.requests ∧ t.fb = s.fb ∧
      step { s with fb := m } = .next { t with fb := m }

/-- R135: BLOCK's next state and response are a function of STATE with the other registers and FB, the
accepted word (if any) and TRANSPORT's answer (if any), under one configuration and with the platform
reset asserted in both steps or in neither. -/
def Obligations.BlockIsAFunctionOfItsInputs : Prop :=
  ∀ s u : State, SameBlockInputs s u →
    (∀ t, step s = .next t → ∃ v rs, step u = .next v ∧
      t.cfg = v.cfg ∧ t.fsm = v.fsm ∧ t.handle = v.handle ∧ t.pendId = v.pendId ∧
      t.stkIllegal = v.stkIllegal ∧ t.stkPrecond = v.stkPrecond ∧
      t.stkTransport = v.stkTransport ∧ t.stkConfig = v.stkConfig ∧ t.fb = v.fb ∧
      t.responses = s.responses ++ rs ∧ v.responses = u.responses ++ rs) ∧
    (∀ f, step s = .fault f → step u = .fault f)

/-- R32, in the model's terms: under the invariant at most one transfer is in flight, and only in
WAIT. -/
def Obligations.AtMostOneTransferInFlight : Prop :=
  ∀ s : State, s.Inv → s.inFlight.length ≤ 1 ∧ (s.inFlight ≠ [] ↔ s.fsm = .wait)

/-- R100: under the invariant a filled FB is the frame of N pixel words of four bytes. -/
def Obligations.FilledBufferIsAFrame : Prop :=
  ∀ s : State, s.Inv → s.filled = true →
    ∃ pix : List (List Byte), pix.length = s.cfg.n ∧ (∀ p ∈ pix, p.length = 4) ∧
      s.memRead 0 (frameLen s.cfg.n) = some (frameOf pix)

/-- The invariant holds in the reset state of every legal configuration, the default one among
them. -/
def Obligations.InvariantAtReset : Prop :=
  State.reset.Inv ∧ ∀ c s, State.build c = some s → s.Inv

/-- Every step keeps the invariant. -/
def Obligations.EveryStepKeepsTheInvariant : Prop :=
  ∀ s t : State, s.Inv → step s = .next t → t.Inv

/-- R35: where the invariant holds no step reads a byte without a value, so every step answers a next
state. -/
def Obligations.NoReachableStepStops : Prop :=
  ∀ s : State, s.Inv → ∃ t, step s = .next t
end

