-- ==== Sys2Proof/Laws/Layout.lean ====
section
/-!
SUPPORT. The codec's and the layout's small lemmas.
-/

namespace Sys2Proof.Machine

@[simp] theorem encodePixel_length (r g b : Byte) (p : Int) :
    (encodePixel r g b p).length = 4 := rfl

@[simp] theorem defaultPixel_length : defaultPixel.length = 4 := rfl

@[simp] theorem byteBits_length (b : Byte) : (byteBits b).length = 8 := rfl

theorem wireBits_length (bytes : List Byte) : (wireBits bytes).length = 8 * bytes.length := by
  induction bytes with
  | nil => rfl
  | cons b rest ih => simp [wireBits, ih]; omega

theorem segmentOf_pixelByte {n i j : Nat} (hi : i < n) (hj : j < 4) :
    segmentOf n (4 + 4 * i + j) = .pixel i j := by
  have h1 : ¬4 + 4 * i + j < 4 := by omega
  have h2 : 4 + 4 * i + j < 4 + 4 * n := by omega
  have h3 : (4 + 4 * i + j - 4) / 4 = i := by omega
  have h4 : (4 + 4 * i + j - 4) % 4 = j := by omega
  simp [segmentOf, h1, h2, h3, h4]

theorem flatten_length_of_words {pix : List (List Byte)} (h : ∀ p ∈ pix, p.length = 4) :
    pix.flatten.length = 4 * pix.length := by
  induction pix with
  | nil => rfl
  | cons p rest ih =>
    have h1 := h p List.mem_cons_self
    have h2 := ih fun q hq => h q (List.mem_cons_of_mem _ hq)
    simp only [List.flatten_cons, List.length_append, List.length_cons, h1, h2]; omega

theorem flatten_getElem_of_words {pix : List (List Byte)} (h : ∀ p ∈ pix, p.length = 4) (k : Nat) :
    pix.flatten[k]? = (pix[k / 4]?).bind fun p => p[k % 4]? := by
  induction pix generalizing k with
  | nil => simp
  | cons p rest ih =>
    have h1 := h p List.mem_cons_self
    have h2 := ih fun q hq => h q (List.mem_cons_of_mem _ hq)
    rw [List.flatten_cons, List.getElem?_append, h1]
    by_cases hk : k < 4
    · have h3 : k / 4 = 0 := by omega
      have h4 : k % 4 = k := by omega
      simp [hk, h3, h4]
    · obtain ⟨d, hd⟩ : ∃ d, k = d + 4 := ⟨k - 4, by omega⟩
      subst hd
      have h3 : (d + 4) / 4 = d / 4 + 1 := by omega
      have h4 : (d + 4) % 4 = d % 4 := by omega
      simp [h2, h3, h4]

/-- The frame of `n` pixel words has the length `L`. -/
theorem frameOf_length {pix : List (List Byte)} (h : ∀ p ∈ pix, p.length = 4) :
    (frameOf pix).length = frameLen pix.length := by
  have hf := flatten_length_of_words h
  simp only [frameOf, frameLen, List.length_append, List.length_replicate, hf]

/-- The byte at each offset of a frame: the word's byte inside the pixel segment, zero elsewhere. -/
theorem frameOf_getElem {pix : List (List Byte)} (h : ∀ p ∈ pix, p.length = 4) {k : Nat}
    (hk : k < frameLen pix.length) :
    (frameOf pix)[k]? =
      if 4 ≤ k ∧ k < 4 + 4 * pix.length then
        (pix[(k - 4) / 4]?).bind fun p => p[(k - 4) % 4]?
      else some 0x00#8 := by
  have hf := flatten_length_of_words h
  have hz : ∀ a b : Nat, a < b → (List.replicate b 0x00#8)[a]? = some 0x00#8 := fun a b hab => by
    rw [List.getElem?_replicate, if_pos hab]
  unfold frameLen at hk
  unfold frameOf
  rw [List.getElem?_append, List.getElem?_append, List.getElem?_append]
  simp only [List.length_append, List.length_replicate, hf]
  by_cases h1 : k < 4
  · rw [if_pos (by omega), if_pos (by omega), if_pos h1, if_neg (by omega), hz _ _ h1]
  · by_cases h2 : k < 4 + 4 * pix.length
    · rw [if_pos (by omega), if_pos (by omega), if_neg h1, if_pos (by omega),
        flatten_getElem_of_words h]
    · rw [if_neg (by omega : ¬(4 ≤ k ∧ k < 4 + 4 * pix.length))]
      by_cases h3 : k < 4 + 4 * pix.length + 4
      · rw [if_pos h3, if_neg h2, hz _ _ (by omega)]
      · rw [if_neg h3, hz _ _ (by omega)]

end Sys2Proof.Machine
end

