-- ==== Sys2Proof/Laws/Memory.lean ====
section
/-!
SUPPORT. The frame buffer's laws: a read after a write, and that a write keeps the canonical form.
-/

namespace Sys2Proof.Machine

theorem Memory.read_append (m m' : Memory) (k : Nat) :
    Memory.read (m ++ m') k = (Memory.read m k).or (Memory.read m' k) := by
  induction m with
  | nil => simp [Memory.read]
  | cons c rest ih =>
    obtain ⟨a, b⟩ := c
    by_cases h : a = k <;> simp [Memory.read, h, ih]

theorem Memory.read_filter (m : Memory) (p : Nat → Bool) (k : Nat) :
    Memory.read (m.filter fun c => p c.1) k = if p k then Memory.read m k else none := by
  induction m with
  | nil => simp [Memory.read]
  | cons c rest ih =>
    obtain ⟨a, b⟩ := c
    by_cases hp : p a <;> by_cases h : a = k
    · subst h; simp [Memory.read, hp]
    · simp [Memory.read, hp, h, ih]
    · subst h; simp [hp, ih]
    · simp [Memory.read, hp, h, ih]

theorem Memory.read_number (bytes : List Byte) (a k : Nat) :
    Memory.read (Memory.number a bytes) k = if k < a then none else bytes[k - a]? := by
  induction bytes generalizing a with
  | nil => simp [Memory.number, Memory.read]
  | cons b rest ih =>
    rcases Nat.lt_trichotomy k a with h | h | h
    · simp [Memory.number, Memory.read, ih, h, Nat.ne_of_gt h, Nat.lt_succ_of_lt h]
    · subst h; simp [Memory.number, Memory.read]
    · have h1 : a ≠ k := Nat.ne_of_lt h
      have h2 : ¬k < a := Nat.lt_asymm h
      have h3 : ¬k < a + 1 := by omega
      obtain ⟨d, hd⟩ : ∃ d, k - a = d + 1 := ⟨k - a - 1, by omega⟩
      have h4 : k - (a + 1) = d := by omega
      simp [Memory.number, Memory.read, ih, h1, h2, h3, hd, h4]

/-- A read after a write: the bytes written at their offsets, and every other offset as before. -/
theorem Memory.read_write (m : Memory) (a : Nat) (bytes : List Byte) (k : Nat) :
    (m.write a bytes).read k =
      if a ≤ k ∧ k < a + bytes.length then bytes[k - a]? else m.read k := by
  have hlt := Memory.read_filter m (fun x => decide (x < a)) k
  have hge := Memory.read_filter m (fun x => decide (a + bytes.length ≤ x)) k
  simp only [decide_eq_true_eq] at hlt hge
  rw [Memory.write, Memory.read_append, Memory.read_append, Memory.read_number, hlt, hge]
  by_cases h1 : k < a
  · have h2 : ¬(a ≤ k ∧ k < a + bytes.length) := by omega
    have h3 : ¬a + bytes.length ≤ k := by omega
    simp [h1, h2, h3]
  · by_cases h2 : k < a + bytes.length
    · have h3 : ¬a + bytes.length ≤ k := by omega
      have h4 : a ≤ k ∧ k < a + bytes.length := by omega
      simp [h1, h3, h4]
    · have h3 : a + bytes.length ≤ k := by omega
      have h4 : ¬(a ≤ k ∧ k < a + bytes.length) := by omega
      have h5 : bytes[k - a]? = none := by rw [List.getElem?_eq_none]; omega
      simp [h1, h3, h2, h5]

theorem Memory.read_write_inside (m : Memory) (a : Nat) (bytes : List Byte) (j : Nat)
    (h : j < bytes.length) : (m.write a bytes).read (a + j) = some bytes[j] := by
  rw [Memory.read_write, if_pos (by omega), Nat.add_sub_cancel_left, List.getElem?_eq_getElem h]

theorem Memory.read_write_outside (m : Memory) (a : Nat) (bytes : List Byte) (k : Nat)
    (h : ¬(a ≤ k ∧ k < a + bytes.length)) : (m.write a bytes).read k = m.read k := by
  rw [Memory.read_write, if_neg h]

/-! The canonical form. -/

theorem Memory.risesFrom_mono {m : Memory} {lo lo' : Nat} (h : lo ≤ lo')
    (hm : Memory.risesFrom lo' m = true) : Memory.risesFrom lo m = true := by
  cases m with
  | nil => rfl
  | cons c rest =>
    simp only [Memory.risesFrom, Bool.and_eq_true, decide_eq_true_eq] at hm ⊢
    exact ⟨by omega, hm.2⟩

theorem Memory.risesFrom_append {m m' : Memory} {lo mid : Nat}
    (hm : Memory.risesFrom lo m = true) (hb : ∀ c ∈ m, c.1 < mid) (hlo : lo ≤ mid)
    (hm' : Memory.risesFrom mid m' = true) : Memory.risesFrom lo (m ++ m') = true := by
  induction m generalizing lo with
  | nil => exact Memory.risesFrom_mono hlo hm'
  | cons c rest ih =>
    simp only [Memory.risesFrom, Bool.and_eq_true, decide_eq_true_eq, List.cons_append] at hm ⊢
    refine ⟨hm.1, ih hm.2 (fun d hd => hb d (List.mem_cons_of_mem _ hd)) ?_⟩
    exact hb c List.mem_cons_self

theorem Memory.risesFrom_filter {m : Memory} {lo : Nat} (p : Host.Cell → Bool)
    (hm : Memory.risesFrom lo m = true) : Memory.risesFrom lo (m.filter p) = true := by
  induction m generalizing lo with
  | nil => rfl
  | cons c rest ih =>
    simp only [Memory.risesFrom, Bool.and_eq_true, decide_eq_true_eq] at hm
    by_cases hp : p c
    · simp [hp, Memory.risesFrom, hm.1, ih hm.2]
    · simpa [hp] using Memory.risesFrom_mono (by omega) (ih hm.2)

theorem Memory.risesFrom_above {m : Memory} {lo hi : Nat} (hm : Memory.risesFrom lo m = true)
    (hb : ∀ c ∈ m, hi ≤ c.1) : Memory.risesFrom hi m = true := by
  cases m with
  | nil => rfl
  | cons c rest =>
    simp only [Memory.risesFrom, Bool.and_eq_true, decide_eq_true_eq] at hm ⊢
    exact ⟨hb c List.mem_cons_self, hm.2⟩

theorem Memory.risesFrom_number (bytes : List Byte) (a : Nat) :
    Memory.risesFrom a (Memory.number a bytes) = true := by
  induction bytes generalizing a with
  | nil => rfl
  | cons b rest ih => simp [Memory.number, Memory.risesFrom, ih]

theorem Memory.number_lt (bytes : List Byte) (a : Nat) :
    ∀ c ∈ Memory.number a bytes, c.1 < a + bytes.length := by
  induction bytes generalizing a with
  | nil => simp [Memory.number]
  | cons b rest ih =>
    intro c hc
    rcases List.mem_cons.mp hc with rfl | hc
    · simp
    · have := ih (a + 1) c hc
      simp only [List.length_cons]; omega

/-- Every memory operation keeps the canonical form: there is one, and it does. -/
theorem Memory.wf_write (m : Memory) (a : Nat) (bytes : List Byte) (h : m.wf = true) :
    (m.write a bytes).wf = true := by
  refine Memory.risesFrom_append (mid := a + bytes.length) ?_ ?_ (Nat.zero_le _) ?_
  · refine Memory.risesFrom_append (mid := a) (Memory.risesFrom_filter _ h) ?_ (Nat.zero_le _)
      (Memory.risesFrom_number bytes a)
    intro c hc
    simpa using (List.mem_filter.mp hc).2
  · intro c hc
    rcases List.mem_append.mp hc with hc | hc
    · have : c.1 < a := by simpa using (List.mem_filter.mp hc).2
      omega
    · exact Memory.number_lt bytes a c hc
  · refine Memory.risesFrom_above (Memory.risesFrom_filter _ h) ?_
    intro c hc
    simpa using (List.mem_filter.mp hc).2

/-- The reset state's memory has the canonical form. -/
theorem reset_fb_wf : State.reset.fb.wf = true := rfl

/-! Runs of bytes. -/

theorem readRun_congr {rd rd' : Nat → Option Byte} {k n : Nat}
    (h : ∀ j, k ≤ j → j < k + n → rd j = rd' j) : readRun rd k n = readRun rd' k n := by
  induction n generalizing k with
  | zero => rfl
  | succ n ih =>
    rw [readRun, readRun, h k (Nat.le_refl k) (by omega),
      ih (fun j h1 h2 => h j (by omega) (by omega))]

/-- What a run that answers holds: as many bytes as were asked for, each the one read. -/
theorem readRun_some {rd : Nat → Option Byte} {k n : Nat} {bytes : List Byte}
    (h : readRun rd k n = some bytes) :
    bytes.length = n ∧ ∀ j, j < n → rd (k + j) = bytes[j]? := by
  induction n generalizing k bytes with
  | zero => simp only [readRun, Option.some.injEq] at h; subst h; simp
  | succ n ih =>
    rw [readRun] at h
    split at h
    · cases h
    · rename_i b hb
      obtain ⟨rest, hrest, rfl⟩ := Option.map_eq_some_iff.mp h
      obtain ⟨h1, h2⟩ := ih hrest
      refine ⟨by simp [h1], fun j hj => ?_⟩
      cases j with
      | zero => simpa using hb
      | succ j =>
        have := h2 j (by omega)
        simpa [Nat.add_assoc, Nat.add_comm 1 j] using this

/-- A run answers the list whose bytes are the ones read. -/
theorem readRun_eq_some {rd : Nat → Option Byte} {k : Nat} {bytes : List Byte}
    (h : ∀ j, j < bytes.length → rd (k + j) = bytes[j]?) :
    readRun rd k bytes.length = some bytes := by
  induction bytes generalizing k with
  | nil => rfl
  | cons b rest ih =>
    have h0 : rd k = some b := by simpa using h 0 (by simp)
    have hr : readRun rd (k + 1) rest.length = some rest := ih fun j hj => by
      have := h (j + 1) (by simp; omega)
      simpa [Nat.add_assoc, Nat.add_comm 1 j] using this
    simp [readRun, h0, hr]

/-- A run answers as soon as each of its bytes has a value. -/
theorem readRun_isSome {rd : Nat → Option Byte} {k n : Nat}
    (h : ∀ j, k ≤ j → j < k + n → (rd j).isSome = true) : ∃ bytes, readRun rd k n = some bytes := by
  induction n generalizing k with
  | zero => exact ⟨[], rfl⟩
  | succ n ih =>
    obtain ⟨b, hb⟩ := Option.isSome_iff_exists.mp (h k (Nat.le_refl k) (by omega))
    obtain ⟨rest, hrest⟩ := ih (k := k + 1) fun j h1 h2 => h j (by omega) (by omega)
    exact ⟨b :: rest, by simp [readRun, hb, hrest]⟩

end Sys2Proof.Machine
end

