-- ==== Sys2Proof/Laws/State.lean ====
section
/-!
SUPPORT. One lemma per field per update of State, each true by rfl, so that no proof unfolds a record
update.
-/

namespace Sys2Proof.Machine

variable (s : State)

/-! `State.setSticky` -/

@[simp] theorem State.setSticky_cfg (e : BlockError) : (s.setSticky e).cfg = s.cfg := rfl
@[simp] theorem State.setSticky_fsm (e : BlockError) : (s.setSticky e).fsm = s.fsm := rfl
@[simp] theorem State.setSticky_handle (e : BlockError) : (s.setSticky e).handle = s.handle := rfl
@[simp] theorem State.setSticky_pendId (e : BlockError) : (s.setSticky e).pendId = s.pendId := rfl
@[simp] theorem State.setSticky_stkIllegal (e : BlockError) :
    (s.setSticky e).stkIllegal = (s.stkIllegal || e.setsIllegal) := rfl
@[simp] theorem State.setSticky_stkPrecond (e : BlockError) :
    (s.setSticky e).stkPrecond = (s.stkPrecond || e.setsPrecond) := rfl
@[simp] theorem State.setSticky_stkTransport (e : BlockError) :
    (s.setSticky e).stkTransport = (s.stkTransport || e.setsTransport) := rfl
@[simp] theorem State.setSticky_stkConfig (e : BlockError) :
    (s.setSticky e).stkConfig = s.stkConfig := rfl
@[simp] theorem State.setSticky_fb (e : BlockError) : (s.setSticky e).fb = s.fb := rfl
@[simp] theorem State.setSticky_busInit (e : BlockError) :
    (s.setSticky e).busInit = s.busInit := rfl
@[simp] theorem State.setSticky_device (e : BlockError) : (s.setSticky e).device = s.device := rfl
@[simp] theorem State.setSticky_inFlight (e : BlockError) :
    (s.setSticky e).inFlight = s.inFlight := rfl
@[simp] theorem State.setSticky_host (e : BlockError) : (s.setSticky e).host = s.host := rfl
@[simp] theorem State.setSticky_script (e : BlockError) : (s.setSticky e).script = s.script := rfl
@[simp] theorem State.setSticky_draws (e : BlockError) : (s.setSticky e).draws = s.draws := rfl
@[simp] theorem State.setSticky_responses (e : BlockError) :
    (s.setSticky e).responses = s.responses := rfl
@[simp] theorem State.setSticky_requests (e : BlockError) :
    (s.setSticky e).requests = s.requests := rfl
@[simp] theorem State.setSticky_wires (e : BlockError) : (s.setSticky e).wires = s.wires := rfl

/-! `State.memWrite` -/

@[simp] theorem State.memWrite_cfg (a : Nat) (bytes : List Byte) :
    (s.memWrite a bytes).cfg = s.cfg := rfl
@[simp] theorem State.memWrite_fsm (a : Nat) (bytes : List Byte) :
    (s.memWrite a bytes).fsm = s.fsm := rfl
@[simp] theorem State.memWrite_handle (a : Nat) (bytes : List Byte) :
    (s.memWrite a bytes).handle = s.handle := rfl
@[simp] theorem State.memWrite_pendId (a : Nat) (bytes : List Byte) :
    (s.memWrite a bytes).pendId = s.pendId := rfl
@[simp] theorem State.memWrite_stkIllegal (a : Nat) (bytes : List Byte) :
    (s.memWrite a bytes).stkIllegal = s.stkIllegal := rfl
@[simp] theorem State.memWrite_stkPrecond (a : Nat) (bytes : List Byte) :
    (s.memWrite a bytes).stkPrecond = s.stkPrecond := rfl
@[simp] theorem State.memWrite_stkTransport (a : Nat) (bytes : List Byte) :
    (s.memWrite a bytes).stkTransport = s.stkTransport := rfl
@[simp] theorem State.memWrite_stkConfig (a : Nat) (bytes : List Byte) :
    (s.memWrite a bytes).stkConfig = s.stkConfig := rfl
@[simp] theorem State.memWrite_fb (a : Nat) (bytes : List Byte) :
    (s.memWrite a bytes).fb = s.fb.write a bytes := rfl
@[simp] theorem State.memWrite_busInit (a : Nat) (bytes : List Byte) :
    (s.memWrite a bytes).busInit = s.busInit := rfl
@[simp] theorem State.memWrite_device (a : Nat) (bytes : List Byte) :
    (s.memWrite a bytes).device = s.device := rfl
@[simp] theorem State.memWrite_inFlight (a : Nat) (bytes : List Byte) :
    (s.memWrite a bytes).inFlight = s.inFlight := rfl
@[simp] theorem State.memWrite_host (a : Nat) (bytes : List Byte) :
    (s.memWrite a bytes).host = s.host := rfl
@[simp] theorem State.memWrite_script (a : Nat) (bytes : List Byte) :
    (s.memWrite a bytes).script = s.script := rfl
@[simp] theorem State.memWrite_draws (a : Nat) (bytes : List Byte) :
    (s.memWrite a bytes).draws = s.draws := rfl
@[simp] theorem State.memWrite_responses (a : Nat) (bytes : List Byte) :
    (s.memWrite a bytes).responses = s.responses := rfl
@[simp] theorem State.memWrite_requests (a : Nat) (bytes : List Byte) :
    (s.memWrite a bytes).requests = s.requests := rfl
@[simp] theorem State.memWrite_wires (a : Nat) (bytes : List Byte) :
    (s.memWrite a bytes).wires = s.wires := rfl

/-! `State.goto` -/

@[simp] theorem State.goto_cfg (f : Fsm) : (s.goto f).cfg = s.cfg := rfl
@[simp] theorem State.goto_fsm (f : Fsm) : (s.goto f).fsm = f := rfl
@[simp] theorem State.goto_handle (f : Fsm) : (s.goto f).handle = s.handle := rfl
@[simp] theorem State.goto_pendId (f : Fsm) : (s.goto f).pendId = s.pendId := rfl
@[simp] theorem State.goto_stkIllegal (f : Fsm) : (s.goto f).stkIllegal = s.stkIllegal := rfl
@[simp] theorem State.goto_stkPrecond (f : Fsm) : (s.goto f).stkPrecond = s.stkPrecond := rfl
@[simp] theorem State.goto_stkTransport (f : Fsm) : (s.goto f).stkTransport = s.stkTransport := rfl
@[simp] theorem State.goto_stkConfig (f : Fsm) : (s.goto f).stkConfig = s.stkConfig := rfl
@[simp] theorem State.goto_fb (f : Fsm) : (s.goto f).fb = s.fb := rfl
@[simp] theorem State.goto_busInit (f : Fsm) : (s.goto f).busInit = s.busInit := rfl
@[simp] theorem State.goto_device (f : Fsm) : (s.goto f).device = s.device := rfl
@[simp] theorem State.goto_inFlight (f : Fsm) : (s.goto f).inFlight = s.inFlight := rfl
@[simp] theorem State.goto_host (f : Fsm) : (s.goto f).host = s.host := rfl
@[simp] theorem State.goto_script (f : Fsm) : (s.goto f).script = s.script := rfl
@[simp] theorem State.goto_draws (f : Fsm) : (s.goto f).draws = s.draws := rfl
@[simp] theorem State.goto_responses (f : Fsm) : (s.goto f).responses = s.responses := rfl
@[simp] theorem State.goto_requests (f : Fsm) : (s.goto f).requests = s.requests := rfl
@[simp] theorem State.goto_wires (f : Fsm) : (s.goto f).wires = s.wires := rfl

/-! `State.respond` -/

@[simp] theorem State.respond_cfg (c : RespCode) (d : BitVec 32) :
    (s.respond c d).cfg = s.cfg := rfl
@[simp] theorem State.respond_fsm (c : RespCode) (d : BitVec 32) :
    (s.respond c d).fsm = s.fsm := rfl
@[simp] theorem State.respond_handle (c : RespCode) (d : BitVec 32) :
    (s.respond c d).handle = s.handle := rfl
@[simp] theorem State.respond_pendId (c : RespCode) (d : BitVec 32) :
    (s.respond c d).pendId = s.pendId := rfl
@[simp] theorem State.respond_stkIllegal (c : RespCode) (d : BitVec 32) :
    (s.respond c d).stkIllegal = s.stkIllegal := rfl
@[simp] theorem State.respond_stkPrecond (c : RespCode) (d : BitVec 32) :
    (s.respond c d).stkPrecond = s.stkPrecond := rfl
@[simp] theorem State.respond_stkTransport (c : RespCode) (d : BitVec 32) :
    (s.respond c d).stkTransport = s.stkTransport := rfl
@[simp] theorem State.respond_stkConfig (c : RespCode) (d : BitVec 32) :
    (s.respond c d).stkConfig = s.stkConfig := rfl
@[simp] theorem State.respond_fb (c : RespCode) (d : BitVec 32) : (s.respond c d).fb = s.fb := rfl
@[simp] theorem State.respond_busInit (c : RespCode) (d : BitVec 32) :
    (s.respond c d).busInit = s.busInit := rfl
@[simp] theorem State.respond_device (c : RespCode) (d : BitVec 32) :
    (s.respond c d).device = s.device := rfl
@[simp] theorem State.respond_inFlight (c : RespCode) (d : BitVec 32) :
    (s.respond c d).inFlight = s.inFlight := rfl
@[simp] theorem State.respond_host (c : RespCode) (d : BitVec 32) :
    (s.respond c d).host = s.host := rfl
@[simp] theorem State.respond_script (c : RespCode) (d : BitVec 32) :
    (s.respond c d).script = s.script := rfl
@[simp] theorem State.respond_draws (c : RespCode) (d : BitVec 32) :
    (s.respond c d).draws = s.draws := rfl
@[simp] theorem State.respond_responses (c : RespCode) (d : BitVec 32) :
    (s.respond c d).responses = s.responses ++ [⟨c.bits, d⟩] := rfl
@[simp] theorem State.respond_requests (c : RespCode) (d : BitVec 32) :
    (s.respond c d).requests = s.requests := rfl
@[simp] theorem State.respond_wires (c : RespCode) (d : BitVec 32) :
    (s.respond c d).wires = s.wires := rfl

/-! `State.raise` -/

@[simp] theorem State.raise_cfg (e : BlockError) : (s.raise e).cfg = s.cfg := rfl
@[simp] theorem State.raise_fsm (e : BlockError) : (s.raise e).fsm = s.fsm := rfl
@[simp] theorem State.raise_handle (e : BlockError) : (s.raise e).handle = s.handle := rfl
@[simp] theorem State.raise_pendId (e : BlockError) : (s.raise e).pendId = s.pendId := rfl
@[simp] theorem State.raise_stkIllegal (e : BlockError) :
    (s.raise e).stkIllegal = (s.stkIllegal || e.setsIllegal) := rfl
@[simp] theorem State.raise_stkPrecond (e : BlockError) :
    (s.raise e).stkPrecond = (s.stkPrecond || e.setsPrecond) := rfl
@[simp] theorem State.raise_stkTransport (e : BlockError) :
    (s.raise e).stkTransport = (s.stkTransport || e.setsTransport) := rfl
@[simp] theorem State.raise_stkConfig (e : BlockError) : (s.raise e).stkConfig = s.stkConfig := rfl
@[simp] theorem State.raise_fb (e : BlockError) : (s.raise e).fb = s.fb := rfl
@[simp] theorem State.raise_busInit (e : BlockError) : (s.raise e).busInit = s.busInit := rfl
@[simp] theorem State.raise_device (e : BlockError) : (s.raise e).device = s.device := rfl
@[simp] theorem State.raise_inFlight (e : BlockError) : (s.raise e).inFlight = s.inFlight := rfl
@[simp] theorem State.raise_host (e : BlockError) : (s.raise e).host = s.host := rfl
@[simp] theorem State.raise_script (e : BlockError) : (s.raise e).script = s.script := rfl
@[simp] theorem State.raise_draws (e : BlockError) : (s.raise e).draws = s.draws := rfl
@[simp] theorem State.raise_responses (e : BlockError) :
    (s.raise e).responses = s.responses ++ [⟨e.code.bits, 0⟩] := rfl
@[simp] theorem State.raise_requests (e : BlockError) : (s.raise e).requests = s.requests := rfl
@[simp] theorem State.raise_wires (e : BlockError) : (s.raise e).wires = s.wires := rfl

/-! `State.configError` -/

@[simp] theorem State.configError_cfg : s.configError.cfg = s.cfg := rfl
@[simp] theorem State.configError_fsm : s.configError.fsm = .cfgError := rfl
@[simp] theorem State.configError_handle : s.configError.handle = s.handle := rfl
@[simp] theorem State.configError_pendId : s.configError.pendId = s.pendId := rfl
@[simp] theorem State.configError_stkIllegal : s.configError.stkIllegal = s.stkIllegal := rfl
@[simp] theorem State.configError_stkPrecond : s.configError.stkPrecond = s.stkPrecond := rfl
@[simp] theorem State.configError_stkTransport : s.configError.stkTransport = s.stkTransport := rfl
@[simp] theorem State.configError_stkConfig : s.configError.stkConfig = true := rfl
@[simp] theorem State.configError_fb : s.configError.fb = s.fb := rfl
@[simp] theorem State.configError_busInit : s.configError.busInit = s.busInit := rfl
@[simp] theorem State.configError_device : s.configError.device = s.device := rfl
@[simp] theorem State.configError_inFlight : s.configError.inFlight = s.inFlight := rfl
@[simp] theorem State.configError_host : s.configError.host = s.host := rfl
@[simp] theorem State.configError_script : s.configError.script = s.script := rfl
@[simp] theorem State.configError_draws : s.configError.draws = s.draws := rfl
@[simp] theorem State.configError_responses : s.configError.responses = s.responses := rfl
@[simp] theorem State.configError_requests : s.configError.requests = s.requests := rfl
@[simp] theorem State.configError_wires : s.configError.wires = s.wires := rfl

/-! `State.handshake` -/

@[simp] theorem State.handshake_cfg : s.handshake.cfg = s.cfg := rfl
@[simp] theorem State.handshake_fsm : s.handshake.fsm = s.fsm := rfl
@[simp] theorem State.handshake_handle : s.handshake.handle = s.handle := rfl
@[simp] theorem State.handshake_pendId : s.handshake.pendId = s.pendId := rfl
@[simp] theorem State.handshake_stkIllegal : s.handshake.stkIllegal = s.stkIllegal := rfl
@[simp] theorem State.handshake_stkPrecond : s.handshake.stkPrecond = s.stkPrecond := rfl
@[simp] theorem State.handshake_stkTransport : s.handshake.stkTransport = s.stkTransport := rfl
@[simp] theorem State.handshake_stkConfig : s.handshake.stkConfig = s.stkConfig := rfl
@[simp] theorem State.handshake_fb : s.handshake.fb = s.fb := rfl
@[simp] theorem State.handshake_busInit : s.handshake.busInit = s.busInit := rfl
@[simp] theorem State.handshake_device : s.handshake.device = s.device := rfl
@[simp] theorem State.handshake_inFlight : s.handshake.inFlight = s.inFlight := rfl
@[simp] theorem State.handshake_host : s.handshake.host = s.host.tail := rfl
@[simp] theorem State.handshake_script : s.handshake.script = s.script := rfl
@[simp] theorem State.handshake_draws : s.handshake.draws = s.draws := rfl
@[simp] theorem State.handshake_responses : s.handshake.responses = s.responses := rfl
@[simp] theorem State.handshake_requests : s.handshake.requests = s.requests := rfl
@[simp] theorem State.handshake_wires : s.handshake.wires = s.wires := rfl

/-! `State.passIdle` -/

@[simp] theorem State.passIdle_cfg : s.passIdle.cfg = s.cfg := rfl
@[simp] theorem State.passIdle_fsm : s.passIdle.fsm = s.fsm := rfl
@[simp] theorem State.passIdle_handle : s.passIdle.handle = s.handle := rfl
@[simp] theorem State.passIdle_pendId : s.passIdle.pendId = s.pendId := rfl
@[simp] theorem State.passIdle_stkIllegal : s.passIdle.stkIllegal = s.stkIllegal := rfl
@[simp] theorem State.passIdle_stkPrecond : s.passIdle.stkPrecond = s.stkPrecond := rfl
@[simp] theorem State.passIdle_stkTransport : s.passIdle.stkTransport = s.stkTransport := rfl
@[simp] theorem State.passIdle_stkConfig : s.passIdle.stkConfig = s.stkConfig := rfl
@[simp] theorem State.passIdle_fb : s.passIdle.fb = s.fb := rfl
@[simp] theorem State.passIdle_busInit : s.passIdle.busInit = s.busInit := rfl
@[simp] theorem State.passIdle_device : s.passIdle.device = s.device := rfl
@[simp] theorem State.passIdle_inFlight : s.passIdle.inFlight = s.inFlight := rfl
@[simp] theorem State.passIdle_host : s.passIdle.host = dropIdle s.host := rfl
@[simp] theorem State.passIdle_script : s.passIdle.script = s.script := rfl
@[simp] theorem State.passIdle_draws : s.passIdle.draws = s.draws := rfl
@[simp] theorem State.passIdle_responses : s.passIdle.responses = s.responses := rfl
@[simp] theorem State.passIdle_requests : s.passIdle.requests = s.requests := rfl
@[simp] theorem State.passIdle_wires : s.passIdle.wires = s.wires := rfl

/-! `State.takeDraw` -/

@[simp] theorem State.takeDraw_cfg : s.takeDraw.cfg = s.cfg := rfl
@[simp] theorem State.takeDraw_fsm : s.takeDraw.fsm = s.fsm := rfl
@[simp] theorem State.takeDraw_handle : s.takeDraw.handle = s.handle := rfl
@[simp] theorem State.takeDraw_pendId : s.takeDraw.pendId = s.pendId := rfl
@[simp] theorem State.takeDraw_stkIllegal : s.takeDraw.stkIllegal = s.stkIllegal := rfl
@[simp] theorem State.takeDraw_stkPrecond : s.takeDraw.stkPrecond = s.stkPrecond := rfl
@[simp] theorem State.takeDraw_stkTransport : s.takeDraw.stkTransport = s.stkTransport := rfl
@[simp] theorem State.takeDraw_stkConfig : s.takeDraw.stkConfig = s.stkConfig := rfl
@[simp] theorem State.takeDraw_fb : s.takeDraw.fb = s.fb := rfl
@[simp] theorem State.takeDraw_busInit : s.takeDraw.busInit = s.busInit := rfl
@[simp] theorem State.takeDraw_device : s.takeDraw.device = s.device := rfl
@[simp] theorem State.takeDraw_inFlight : s.takeDraw.inFlight = s.inFlight := rfl
@[simp] theorem State.takeDraw_host : s.takeDraw.host = s.host := rfl
@[simp] theorem State.takeDraw_script : s.takeDraw.script = s.script.tail := rfl
@[simp] theorem State.takeDraw_draws : s.takeDraw.draws = s.draws + 1 := rfl
@[simp] theorem State.takeDraw_responses : s.takeDraw.responses = s.responses := rfl
@[simp] theorem State.takeDraw_requests : s.takeDraw.requests = s.requests := rfl
@[simp] theorem State.takeDraw_wires : s.takeDraw.wires = s.wires := rfl

/-! `State.sent` -/

@[simp] theorem State.sent_cfg (r : Request) : (s.sent r).cfg = s.cfg := rfl
@[simp] theorem State.sent_fsm (r : Request) : (s.sent r).fsm = s.fsm := rfl
@[simp] theorem State.sent_handle (r : Request) : (s.sent r).handle = s.handle := rfl
@[simp] theorem State.sent_pendId (r : Request) : (s.sent r).pendId = s.pendId := rfl
@[simp] theorem State.sent_stkIllegal (r : Request) : (s.sent r).stkIllegal = s.stkIllegal := rfl
@[simp] theorem State.sent_stkPrecond (r : Request) : (s.sent r).stkPrecond = s.stkPrecond := rfl
@[simp] theorem State.sent_stkTransport (r : Request) :
    (s.sent r).stkTransport = s.stkTransport := rfl
@[simp] theorem State.sent_stkConfig (r : Request) : (s.sent r).stkConfig = s.stkConfig := rfl
@[simp] theorem State.sent_fb (r : Request) : (s.sent r).fb = s.fb := rfl
@[simp] theorem State.sent_busInit (r : Request) : (s.sent r).busInit = s.busInit := rfl
@[simp] theorem State.sent_device (r : Request) : (s.sent r).device = s.device := rfl
@[simp] theorem State.sent_inFlight (r : Request) : (s.sent r).inFlight = s.inFlight := rfl
@[simp] theorem State.sent_host (r : Request) : (s.sent r).host = s.host := rfl
@[simp] theorem State.sent_script (r : Request) : (s.sent r).script = s.script := rfl
@[simp] theorem State.sent_draws (r : Request) : (s.sent r).draws = s.draws := rfl
@[simp] theorem State.sent_responses (r : Request) : (s.sent r).responses = s.responses := rfl
@[simp] theorem State.sent_requests (r : Request) : (s.sent r).requests = s.requests ++ [r] := rfl
@[simp] theorem State.sent_wires (r : Request) : (s.sent r).wires = s.wires := rfl

/-! `State.transmitted` -/

@[simp] theorem State.transmitted_cfg (w : WireStream) : (s.transmitted w).cfg = s.cfg := rfl
@[simp] theorem State.transmitted_fsm (w : WireStream) : (s.transmitted w).fsm = s.fsm := rfl
@[simp] theorem State.transmitted_handle (w : WireStream) :
    (s.transmitted w).handle = s.handle := rfl
@[simp] theorem State.transmitted_pendId (w : WireStream) :
    (s.transmitted w).pendId = s.pendId := rfl
@[simp] theorem State.transmitted_stkIllegal (w : WireStream) :
    (s.transmitted w).stkIllegal = s.stkIllegal := rfl
@[simp] theorem State.transmitted_stkPrecond (w : WireStream) :
    (s.transmitted w).stkPrecond = s.stkPrecond := rfl
@[simp] theorem State.transmitted_stkTransport (w : WireStream) :
    (s.transmitted w).stkTransport = s.stkTransport := rfl
@[simp] theorem State.transmitted_stkConfig (w : WireStream) :
    (s.transmitted w).stkConfig = s.stkConfig := rfl
@[simp] theorem State.transmitted_fb (w : WireStream) : (s.transmitted w).fb = s.fb := rfl
@[simp] theorem State.transmitted_busInit (w : WireStream) :
    (s.transmitted w).busInit = s.busInit := rfl
@[simp] theorem State.transmitted_device (w : WireStream) :
    (s.transmitted w).device = s.device := rfl
@[simp] theorem State.transmitted_inFlight (w : WireStream) :
    (s.transmitted w).inFlight = s.inFlight := rfl
@[simp] theorem State.transmitted_host (w : WireStream) : (s.transmitted w).host = s.host := rfl
@[simp] theorem State.transmitted_script (w : WireStream) :
    (s.transmitted w).script = s.script := rfl
@[simp] theorem State.transmitted_draws (w : WireStream) : (s.transmitted w).draws = s.draws := rfl
@[simp] theorem State.transmitted_responses (w : WireStream) :
    (s.transmitted w).responses = s.responses := rfl
@[simp] theorem State.transmitted_requests (w : WireStream) :
    (s.transmitted w).requests = s.requests := rfl
@[simp] theorem State.transmitted_wires (w : WireStream) :
    (s.transmitted w).wires = s.wires ++ [w] := rfl

/-! `State.presenting` -/

@[simp] theorem State.presenting_cfg (w : Word) : (s.presenting w).cfg = s.cfg := rfl
@[simp] theorem State.presenting_fsm (w : Word) : (s.presenting w).fsm = s.fsm := rfl
@[simp] theorem State.presenting_handle (w : Word) : (s.presenting w).handle = s.handle := rfl
@[simp] theorem State.presenting_pendId (w : Word) : (s.presenting w).pendId = s.pendId := rfl
@[simp] theorem State.presenting_stkIllegal (w : Word) :
    (s.presenting w).stkIllegal = s.stkIllegal := rfl
@[simp] theorem State.presenting_stkPrecond (w : Word) :
    (s.presenting w).stkPrecond = s.stkPrecond := rfl
@[simp] theorem State.presenting_stkTransport (w : Word) :
    (s.presenting w).stkTransport = s.stkTransport := rfl
@[simp] theorem State.presenting_stkConfig (w : Word) :
    (s.presenting w).stkConfig = s.stkConfig := rfl
@[simp] theorem State.presenting_fb (w : Word) : (s.presenting w).fb = s.fb := rfl
@[simp] theorem State.presenting_busInit (w : Word) : (s.presenting w).busInit = s.busInit := rfl
@[simp] theorem State.presenting_device (w : Word) : (s.presenting w).device = s.device := rfl
@[simp] theorem State.presenting_inFlight (w : Word) : (s.presenting w).inFlight = s.inFlight := rfl
@[simp] theorem State.presenting_host (w : Word) :
    (s.presenting w).host = .present w :: s.host := rfl
@[simp] theorem State.presenting_script (w : Word) : (s.presenting w).script = s.script := rfl
@[simp] theorem State.presenting_draws (w : Word) : (s.presenting w).draws = s.draws := rfl
@[simp] theorem State.presenting_responses (w : Word) :
    (s.presenting w).responses = s.responses := rfl
@[simp] theorem State.presenting_requests (w : Word) : (s.presenting w).requests = s.requests := rfl
@[simp] theorem State.presenting_wires (w : Word) : (s.presenting w).wires = s.wires := rfl

/-! `pollDone` -/

@[simp] theorem pollDone_cfg (w : WireStream) : (pollDone s w).cfg = s.cfg := rfl
@[simp] theorem pollDone_fsm (w : WireStream) : (pollDone s w).fsm = .ready := rfl
@[simp] theorem pollDone_handle (w : WireStream) : (pollDone s w).handle = s.handle := rfl
@[simp] theorem pollDone_pendId (w : WireStream) : (pollDone s w).pendId = s.pendId := rfl
@[simp] theorem pollDone_stkIllegal (w : WireStream) :
    (pollDone s w).stkIllegal = s.stkIllegal := rfl
@[simp] theorem pollDone_stkPrecond (w : WireStream) :
    (pollDone s w).stkPrecond = s.stkPrecond := rfl
@[simp] theorem pollDone_stkTransport (w : WireStream) :
    (pollDone s w).stkTransport = s.stkTransport := rfl
@[simp] theorem pollDone_stkConfig (w : WireStream) : (pollDone s w).stkConfig = s.stkConfig := rfl
@[simp] theorem pollDone_fb (w : WireStream) : (pollDone s w).fb = s.fb := rfl
@[simp] theorem pollDone_busInit (w : WireStream) : (pollDone s w).busInit = s.busInit := rfl
@[simp] theorem pollDone_device (w : WireStream) : (pollDone s w).device = s.device := rfl
@[simp] theorem pollDone_inFlight (w : WireStream) :
    (pollDone s w).inFlight = s.inFlight.eraseP (fun x => decide (x.id = s.pendId)) := rfl
@[simp] theorem pollDone_host (w : WireStream) : (pollDone s w).host = s.host := rfl
@[simp] theorem pollDone_script (w : WireStream) : (pollDone s w).script = s.script.tail := rfl
@[simp] theorem pollDone_draws (w : WireStream) : (pollDone s w).draws = s.draws + 1 := rfl
@[simp] theorem pollDone_responses (w : WireStream) : (pollDone s w).responses = s.responses := rfl
@[simp] theorem pollDone_requests (w : WireStream) :
    (pollDone s w).requests = s.requests ++ [pollRequest s] := rfl
@[simp] theorem pollDone_wires (w : WireStream) : (pollDone s w).wires = s.wires ++ [w] := rfl

end Sys2Proof.Machine
end

