-- ==== Sys2Proof/Laws/Ops.lean ====
section
/-!
SUPPORT. What each shared operation can do, said once.
-/

namespace Sys2Proof.Machine

variable {s t : State} {rule : State → Answer}

/-! `accept` -/

theorem accept_ready (h : s.fsm = .ready) : accept s rule = rule s.handshake := by
  simp [accept, h]

theorem accept_cfgError (h : s.fsm = .cfgError) :
    accept s rule = .next (s.handshake.respond .errConfig 0) := by
  simp [accept, h]

theorem accept_held (h : s.cmdReady = false) : accept s rule = .next s := by
  unfold State.cmdReady at h
  unfold accept
  split <;> simp_all

/-- Everything an accepted word can lead to. -/
theorem accept_next (h : accept s rule = .next t) :
    (s.fsm = .ready ∧ rule s.handshake = .next t) ∨
    (s.fsm = .cfgError ∧ t = s.handshake.respond .errConfig 0) ∨
    (s.cmdReady = false ∧ t = s) := by
  cases hf : s.fsm
  case ready => exact .inl ⟨rfl, by rwa [accept_ready hf] at h⟩
  case cfgError =>
    rw [accept_cfgError hf] at h
    cases h
    exact .inr (.inl ⟨rfl, rfl⟩)
  all_goals
    have hr : s.cmdReady = false := by simp [State.cmdReady, hf]
    rw [accept_held hr] at h
    cases h
    exact .inr (.inr ⟨hr, rfl⟩)

/-! The four meanings. -/

theorem execSetPixel_inRange {idx : BitVec 16} {r g b p : Byte} (hf : s.fsm = .ready)
    (hi : idx.toNat < s.cfg.n) :
    execSetPixel idx r g b p s =
      .next ((s.handshake.memWrite (pixelOffset idx) (encodePixel r g b p.toNat)).respond .ok 0) := by
  rw [execSetPixel, accept_ready hf, State.handshake_cfg, if_neg (Nat.not_le.mpr hi)]

theorem execSetPixel_outOfRange {idx : BitVec 16} {r g b p : Byte} (hf : s.fsm = .ready)
    (hi : s.cfg.n ≤ idx.toNat) :
    execSetPixel idx r g b p s = .next (s.handshake.raise .preconditionViolation) := by
  rw [execSetPixel, accept_ready hf, State.handshake_cfg, if_pos hi]

theorem execReadByte_inRange {off : BitVec 24} {b : Byte} (hf : s.fsm = .ready)
    (hi : off.toNat < frameLen s.cfg.n) (hb : s.fb.read off.toNat = some b) :
    execReadByte off s = .next (s.handshake.respond .ok (b.setWidth 32)) := by
  rw [execReadByte, accept_ready hf, State.handshake_cfg, State.handshake_fb, byteOffset,
    if_neg (Nat.not_le.mpr hi), hb]

theorem execReadByte_unfilled {off : BitVec 24} (hf : s.fsm = .ready)
    (hi : off.toNat < frameLen s.cfg.n) (hb : s.fb.read off.toNat = none) :
    execReadByte off s = .fault (.unfilledByte off.toNat) := by
  rw [execReadByte, accept_ready hf, State.handshake_cfg, State.handshake_fb, byteOffset,
    if_neg (Nat.not_le.mpr hi), hb]

theorem execReadByte_outOfRange {off : BitVec 24} (hf : s.fsm = .ready)
    (hi : frameLen s.cfg.n ≤ off.toNat) :
    execReadByte off s = .next (s.handshake.raise .preconditionViolation) := by
  rw [execReadByte, accept_ready hf, State.handshake_cfg, byteOffset, if_pos hi]

theorem execSetPixel_next {idx : BitVec 16} {r g b p : Byte}
    (h : execSetPixel idx r g b p s = .next t) :
    (s.fsm = .ready ∧ s.cfg.n ≤ idx.toNat ∧ t = s.handshake.raise .preconditionViolation) ∨
    (s.fsm = .ready ∧ idx.toNat < s.cfg.n ∧
      t = (s.handshake.memWrite (pixelOffset idx) (encodePixel r g b p.toNat)).respond .ok 0) ∨
    (s.fsm = .cfgError ∧ t = s.handshake.respond .errConfig 0) ∨
    (s.cmdReady = false ∧ t = s) := by
  rcases accept_next h with ⟨hf, h⟩ | h | h
  · rw [State.handshake_cfg] at h
    split at h
    · cases h; exact .inl ⟨hf, ‹_›, rfl⟩
    · cases h; exact .inr (.inl ⟨hf, by omega, rfl⟩)
  · exact .inr (.inr (.inl h))
  · exact .inr (.inr (.inr h))

theorem execReadByte_next {off : BitVec 24} (h : execReadByte off s = .next t) :
    (s.fsm = .ready ∧ frameLen s.cfg.n ≤ byteOffset off ∧
      t = s.handshake.raise .preconditionViolation) ∨
    (s.fsm = .ready ∧ byteOffset off < frameLen s.cfg.n ∧
      ∃ b, s.fb.read (byteOffset off) = some b ∧ t = s.handshake.respond .ok (b.setWidth 32)) ∨
    (s.fsm = .cfgError ∧ t = s.handshake.respond .errConfig 0) ∨
    (s.cmdReady = false ∧ t = s) := by
  rcases accept_next h with ⟨hf, h⟩ | h | h
  · rw [State.handshake_cfg, State.handshake_fb] at h
    split at h
    · cases h; exact .inl ⟨hf, ‹_›, rfl⟩
    · split at h
      · rename_i b hb
        cases h
        exact .inr (.inl ⟨hf, by omega, b, hb, rfl⟩)
      · cases h
  · exact .inr (.inr (.inl h))
  · exact .inr (.inr (.inr h))

theorem execGetLength_next (h : execGetLength s = .next t) :
    (s.fsm = .ready ∧ t = s.handshake.respond .ok (BitVec.ofNat 32 s.cfg.n)) ∨
    (s.fsm = .cfgError ∧ t = s.handshake.respond .errConfig 0) ∨
    (s.cmdReady = false ∧ t = s) := by
  rcases accept_next h with ⟨hf, h⟩ | h | h
  · cases h; exact .inl ⟨hf, rfl⟩
  · exact .inr (.inl h)
  · exact .inr (.inr h)

theorem execFlush_next (h : execFlush s = .next t) :
    (s.fsm = .ready ∧ t = s.handshake.goto .submit) ∨
    (s.fsm = .cfgError ∧ t = s.handshake.respond .errConfig 0) ∨
    (s.cmdReady = false ∧ t = s) := by
  rcases accept_next h with ⟨hf, h⟩ | h | h
  · cases h; exact .inl ⟨hf, rfl⟩
  · exact .inr (.inl h)
  · exact .inr (.inr h)

/-- A command in CFG_ERROR, whichever it is. -/
theorem exec_cfgError (i : Instr) (h : s.fsm = .cfgError) :
    exec i s = .next (s.handshake.respond .errConfig 0) := by
  cases i <;> simp only [exec, execSetPixel, execReadByte, execGetLength, execFlush] <;>
    exact accept_cfgError h

/-- A command while the port is busy, whichever it is. -/
theorem exec_held (i : Instr) (h : s.cmdReady = false) : exec i s = .next s := by
  cases i <;> simp only [exec, execSetPixel, execReadByte, execGetLength, execFlush] <;>
    exact accept_held h

theorem illegalStep_next (h : illegalStep s = .next t) :
    (s.fsm = .ready ∧ t = s.handshake.raise .illegalCommand) ∨
    (s.fsm = .cfgError ∧ t = s.handshake.respond .errConfig 0) ∨
    (s.cmdReady = false ∧ t = s) := by
  rcases accept_next h with ⟨hf, h⟩ | h | h
  · cases h; exact .inl ⟨hf, rfl⟩
  · exact .inr (.inl h)
  · exact .inr (.inr h)

/-! BLOCK's own steps. -/

theorem initBusStep_next (h : initBusStep s = .next t) :
    (s.nextDraw.init = none ∧ t = s.takeDraw) ∨
    (s.nextDraw.init = some .initOk ∧
      t = { s.takeDraw.sent (initRequest s.cfg) with busInit := true, fsm := .initAttach }) ∨
    (s.nextDraw.init = some .initErr ∧ t = (s.takeDraw.sent (initRequest s.cfg)).configError) := by
  unfold initBusStep at h
  split at h <;> cases h
  · exact .inl ⟨‹_›, rfl⟩
  · exact .inr (.inl ⟨‹_›, rfl⟩)
  · exact .inr (.inr ⟨‹_›, rfl⟩)

theorem initAttachStep_next (h : initAttachStep s = .next t) :
    (s.nextDraw.attach = none ∧ t = s.takeDraw) ∨
    (∃ d, s.nextDraw.attach = some (.attachOk d) ∧
      t = { s.takeDraw.sent (attachRequest s.cfg) with
        handle := d, device := some d, fsm := .initFill }) ∨
    (s.nextDraw.attach = some .attachErr ∧
      t = (s.takeDraw.sent (attachRequest s.cfg)).configError) := by
  unfold initAttachStep at h
  split at h <;> cases h
  · exact .inl ⟨‹_›, rfl⟩
  · exact .inr (.inl ⟨_, ‹_›, rfl⟩)
  · exact .inr (.inr ⟨‹_›, rfl⟩)

theorem submitStep_next (h : submitStep s = .next t) :
    (s.nextDraw.submit = none ∧ t = s.takeDraw) ∨
    (∃ id, s.nextDraw.submit = some (.accept id) ∧
      t = { s.takeDraw.sent (submitRequest s) with
        pendId := id, inFlight := s.inFlight ++ [submission s id], fsm := .wait }) ∨
    (s.nextDraw.submit = some .reject ∧
      t = (((s.takeDraw.sent (submitRequest s)).transmitted ⟨false, s.nextDraw.badWire⟩).goto
        .ready).raise .transportSubmit) := by
  unfold submitStep at h
  split at h <;> cases h
  · exact .inl ⟨‹_›, rfl⟩
  · exact .inr (.inl ⟨_, ‹_›, rfl⟩)
  · exact .inr (.inr ⟨‹_›, rfl⟩)

theorem waitStep_next (h : waitStep s = .next t) :
    (s.nextDraw.poll = .pending ∧ t = s.takeDraw.sent (pollRequest s)) ∨
    (s.nextDraw.poll = .doneOk ∧
      ∃ bytes, s.transportFrame = some bytes ∧
        t = (pollDone s ⟨true, wireBits bytes⟩).respond .ok 0) ∨
    (s.nextDraw.poll = .doneErr ∧ s.cfg.statusPolicy = .surface ∧
      t = (pollDone s ⟨false, s.nextDraw.badWire⟩).raise .transportAwait) ∨
    (s.nextDraw.poll = .doneErr ∧ s.cfg.statusPolicy = .discard ∧
      t = (pollDone s ⟨false, s.nextDraw.badWire⟩).respond .ok 0) := by
  unfold waitStep at h
  split at h
  · cases h; exact .inl ⟨‹_›, rfl⟩
  · split at h
    · cases h
      exact .inr (.inl ⟨‹_›, _, ‹_›, rfl⟩)
    · cases h
  · split at h
    · cases h
      exact .inr (.inr (.inl ⟨‹_›, ‹_›, rfl⟩))
    · cases h
      exact .inr (.inr (.inr ⟨‹_›, ‹_›, rfl⟩))

theorem ownStepAt_initBus (h : s.fsm = .initBus) : ownStepAt s = initBusStep s := by
  simp [ownStepAt, h]

theorem ownStepAt_initAttach (h : s.fsm = .initAttach) : ownStepAt s = initAttachStep s := by
  simp [ownStepAt, h]

theorem ownStepAt_initFill (h : s.fsm = .initFill) : ownStepAt s = initFillStep s := by
  simp [ownStepAt, h]

theorem ownStepAt_submit (h : s.fsm = .submit) : ownStepAt s = submitStep s := by
  simp [ownStepAt, h]

theorem ownStepAt_wait (h : s.fsm = .wait) : ownStepAt s = waitStep s := by
  simp [ownStepAt, h]

/-- In READY and CFG_ERROR BLOCK has no step of its own. -/
theorem ownStepAt_idle (h : s.cmdReady = true) : ownStepAt s = .next s := by
  unfold State.cmdReady at h
  unfold ownStepAt
  split <;> simp_all

/-- BLOCK's own step is the one its STATE names. -/
theorem ownStepAt_next (h : ownStepAt s = .next t) :
    (s.fsm = .initBus ∧ initBusStep s = .next t) ∨
    (s.fsm = .initAttach ∧ initAttachStep s = .next t) ∨
    (s.fsm = .initFill ∧ t = (s.memWrite 0 (defaultFrame s.cfg.n)).goto .ready) ∨
    (s.fsm = .submit ∧ submitStep s = .next t) ∨
    (s.fsm = .wait ∧ waitStep s = .next t) ∨
    (s.cmdReady = true ∧ t = s) := by
  unfold ownStepAt at h
  unfold State.cmdReady
  split at h <;> simp_all [initFillStep]

/-! TRANSPORT's draws. -/

theorem nextDraw_script {d : Draw} {rest : List Draw} (h : s.script = d :: rest) :
    s.nextDraw = d := by
  simp [State.nextDraw, h]

theorem nextDraw_free (h : s.script = []) : s.nextDraw = Config.freeDraw s.draws := by
  simp [State.nextDraw, h]

@[simp] theorem passIdle_cmdReady (s : State) : s.passIdle.cmdReady = s.cmdReady := rfl

/-- Where HOST's next act is not an idle step, nothing of HOST's passes. -/
theorem passIdle_eq (h : dropIdle s.host = s.host) : s.passIdle = s := by
  simp [State.passIdle, h]

@[simp] theorem passIdle_nextDraw (s : State) : s.passIdle.nextDraw = s.nextDraw := rfl

@[simp] theorem passIdle_transportFrame (s : State) :
    s.passIdle.transportFrame = s.transportFrame := rfl

/-- TRANSPORT reads at `FB_BASE + k` what FB holds at `k`. -/
theorem transportFrame_eq (s : State) : s.transportFrame = s.memRead 0 (frameLen s.cfg.n) := by
  have key : ∀ n k, readRun s.transportRead (s.cfg.fbBase + k) n = readRun s.fb.read k n := by
    intro n
    induction n with
    | zero => intro k; rfl
    | succ n ih =>
      intro k
      have h : s.transportRead (s.cfg.fbBase + k) = s.fb.read k := by
        simp [State.transportRead]
      have := ih (k + 1)
      rw [← Nat.add_assoc] at this
      rw [readRun, readRun, h, this]
  simpa [State.transportFrame, State.memRead] using key (frameLen s.cfg.n) 0

end Sys2Proof.Machine
end

