-- ==== Sys2Proof/Laws/PerInstr.lean ====
section
/-!
SUPPORT. The family EncodingRow: the word of a command matches its own row of spec/opcode_table.json,
reserved zeros included (spec/30_encoding.md R62 to R65, R68).
-/

namespace Sys2Proof.Laws.EncodingRow

/-- The row's mask and match, as spec/opcode_table.json gives them. -/
def row : Instr → Word × Word
  | .setPixel _ _ _ _ _ => (0xFF000000000000FF#64, 0x1000000000000000#64)
  | .flush => (0xFFFFFFFFFFFFFFFF#64, 0x2000000000000000#64)
  | .readByte _ => (0xFFFFFFFFFF000000#64, 0x3000000000000000#64)
  | .getLength => (0xFFFFFFFFFFFFFFFF#64, 0x4000000000000000#64)

/-- The encoded word has the row's fixed bits, reserved zeros included. -/
def Statement (i : Instr) : Prop := encode i &&& (row i).1 = (row i).2

theorem setPixel (idx : BitVec 16) (red green blue bri : Byte) :
    Statement (.setPixel idx red green blue bri) := by
  apply BitVec.eq_of_getElem_eq
  intro k hk
  simp only [encode, row, field]
  interval_cases k <;> simp

theorem flush : Statement .flush := by simp [Statement, row, encode, field]

theorem readByte (off : BitVec 24) : Statement (.readByte off) := by
  apply BitVec.eq_of_getElem_eq
  intro k hk
  simp only [encode, row, field]
  interval_cases k <;> simp

theorem getLength : Statement .getLength := by simp [Statement, row, encode, field]

end Sys2Proof.Laws.EncodingRow
end

