-- ==== Sys2Proof/Laws/Step.lean ====
section
/-!
SUPPORT. What one step can do.
-/

namespace Sys2Proof.Machine

variable {s t : State}

theorem exec_next {i : Instr} (h : exec i s = .next t) :
    (s.fsm = .ready ∧ ((t = s.handshake.raise .preconditionViolation) ∨
      (∃ idx r g b p, i = .setPixel idx r g b p ∧ idx.toNat < s.cfg.n ∧
        t = (s.handshake.memWrite (pixelOffset idx) (encodePixel r g b (BitVec.toNat p))).respond
          .ok 0) ∨
      (∃ data, t = s.handshake.respond .ok data) ∨
      (i = .flush ∧ t = s.handshake.goto .submit))) ∨
    (s.fsm = .cfgError ∧ t = s.handshake.respond .errConfig 0) ∨
    (s.cmdReady = false ∧ t = s) := by
  cases i with
  | setPixel idx r g b p =>
    rcases execSetPixel_next h with ⟨hf, -, ht⟩ | ⟨hf, hi, ht⟩ | h | h
    · exact .inl ⟨hf, .inl ht⟩
    · exact .inl ⟨hf, .inr (.inl ⟨idx, r, g, b, p, rfl, hi, ht⟩)⟩
    · exact .inr (.inl h)
    · exact .inr (.inr h)
  | flush =>
    rcases execFlush_next h with ⟨hf, ht⟩ | h | h
    · exact .inl ⟨hf, .inr (.inr (.inr ⟨rfl, ht⟩))⟩
    · exact .inr (.inl h)
    · exact .inr (.inr h)
  | readByte off =>
    rcases execReadByte_next h with ⟨hf, -, ht⟩ | ⟨hf, -, b, -, ht⟩ | h | h
    · exact .inl ⟨hf, .inl ht⟩
    · exact .inl ⟨hf, .inr (.inr (.inl ⟨_, ht⟩))⟩
    · exact .inr (.inl h)
    · exact .inr (.inr h)
  | getLength =>
    rcases execGetLength_next h with ⟨hf, ht⟩ | h | h
    · exact .inl ⟨hf, .inr (.inr (.inl ⟨_, ht⟩))⟩
    · exact .inr (.inl h)
    · exact .inr (.inr h)

/-- Everything one step can be: the platform reset, an accepted word (a command or an illegal one),
or BLOCK's own step. -/
theorem step_next (h : step s = .next t) :
    (s.resetNext = true ∧ t = platformReset s) ∨
    (s.acceptsNow = true ∧ s.resetNext = false ∧ ((∃ i, s.turn = .command i ∧ exec i s = .next t) ∨
      (s.turn = .illegal ∧ illegalStep s = .next t))) ∨
    (s.acceptsNow = false ∧ s.resetNext = false ∧ ownStepAt s.passIdle = .next t) := by
  unfold step at h
  match hh : s.host with
  | .reset :: rest =>
    have ht : s.turn = .reset := by simp [State.turn, hh]
    rw [ht] at h
    cases h
    exact .inl ⟨by simp [State.resetNext, hh], rfl⟩
  | .present w :: rest =>
    have hn : s.resetNext = false := by simp [State.resetNext, hh]
    by_cases hr : s.cmdReady = true
    · have ha : s.acceptsNow = true := by simp [State.acceptsNow, State.presents, hh, hr]
      refine .inr (.inl ⟨ha, hn, ?_⟩)
      have ht : s.turn = turnOfWord w := by simp [State.turn, hh, hr]
      unfold turnOfWord at ht
      split at ht <;> rw [ht] at h
      · exact .inl ⟨_, ht, h⟩
      · exact .inr ⟨ht, h⟩
    · have ha : s.acceptsNow = false := by simp [State.acceptsNow, State.presents, hh, hr]
      have ht : s.turn = .own := by simp [State.turn, hh, hr]
      rw [ht] at h
      exact .inr (.inr ⟨ha, hn, h⟩)
  | .idle :: rest =>
    have ht : s.turn = .own := by simp [State.turn, hh]
    rw [ht] at h
    exact .inr (.inr ⟨by simp [State.acceptsNow, State.presents, hh], by simp [State.resetNext, hh], h⟩)
  | [] =>
    have ht : s.turn = .own := by simp [State.turn, hh]
    rw [ht] at h
    exact .inr (.inr ⟨by simp [State.acceptsNow, State.presents, hh], by simp [State.resetNext, hh], h⟩)

/-- A step in which HOST neither resets nor has a word accepted is BLOCK's own step. -/
theorem step_own (ha : s.acceptsNow = false) (hr : s.resetNext = false) :
    step s = ownStepAt s.passIdle := by
  have ht : s.turn = .own := by
    unfold State.acceptsNow State.presents at ha
    unfold State.resetNext at hr
    unfold State.turn
    split <;> simp_all
  simp [step, ht, ownStep]

/-- A word accepted by a ready port is the command it decodes to. -/
theorem turn_command {w : Word} {rest : List HostEvent} {i : Instr}
    (hh : s.host = .present w :: rest) (hr : s.cmdReady = true) (hd : decode w = .command i) :
    s.turn = .command i := by
  simp [State.turn, hh, hr, turnOfWord, hd]

/-- The port accepts only in READY or CFG_ERROR. -/
theorem cmdReady_cases (h : s.cmdReady = true) : s.fsm = .ready ∨ s.fsm = .cfgError := by
  unfold State.cmdReady at h
  split at h <;> simp_all

theorem cmdReady_of_accepts (h : s.acceptsNow = true) : s.cmdReady = true := by
  simp only [State.acceptsNow, Bool.and_eq_true] at h
  exact h.2

end Sys2Proof.Machine
end

