-- ==== Sys2Proof/Laws/Run.lean ====
section
/-!
SUPPORT. Runs of several steps.
-/

namespace Sys2Proof.Machine

theorem run_zero (s : State) : Host.Core.run Sys2Proof.core 0 s = (.next s : Answer) := rfl

/-- A run is its first step and the run from there. -/
theorem run_unfold (k : Nat) (s : State) :
    Host.Core.run Sys2Proof.core (k + 1) s =
      (match step s with
        | .next t => Host.Core.run Sys2Proof.core k t
        | .fault r => .fault r
        | .refused r => .refused r : Answer) := by
  refine (Host.Core.run.eq_2 Sys2Proof.core s k).trans ?_
  show _ = (match Sys2Proof.core.step s with
    | .next t => Host.Core.run Sys2Proof.core k t
    | .fault r => .fault r
    | .refused r => .refused r)
  cases Sys2Proof.core.step s <;> rfl

/-- A run goes on from the next state of its first step. -/
theorem run_succ {s t : State} (k : Nat) (h : step s = .next t) :
    Host.Core.run Sys2Proof.core (k + 1) s = Host.Core.run Sys2Proof.core k t := by
  rw [run_unfold, h]

/-- A run that answers a next state goes on from there. -/
theorem run_add {s t : State} (a b : Nat)
    (h : Host.Core.run Sys2Proof.core a s = (.next t : Answer)) :
    Host.Core.run Sys2Proof.core (a + b) s = Host.Core.run Sys2Proof.core b t := by
  induction a generalizing s with
  | zero =>
    cases h
    rw [Nat.zero_add]
  | succ a ih =>
    rw [Nat.add_right_comm, run_unfold]
    rw [run_unfold] at h
    cases hs : step s with
    | next u => rw [hs] at h; exact ih h
    | fault r => rw [hs] at h; cases h
    | refused r => rw [hs] at h; cases h

end Sys2Proof.Machine
end

