-- ==== Sys2Proof/Tests/Slice0.lean ====
section
/-!
SUPPORT. The model's own tests: what is refused, words written out bit by bit, single steps with the
expected values of spec/95_test_vectors.md, and for every statement with hypotheses a state that meets
them (`witness_…`).
-/

namespace Sys2Proof.Tests

open Sys2Proof Sys2Proof.Machine

/-! ## Small states -/

/-- A configuration of `n` pixels with no free value in it. -/
def cfgOf (n : Nat) (policy : StatusPolicy) : Config :=
  ⟨n, 7, 6, 10000000, 0, 2, .auto, 1, 4096, policy⟩

/-- READY after boot with `n` pixels and handle `0x0A` (95_test_vectors.md P1). -/
def ready (n : Nat) (policy : StatusPolicy := .surface) : State :=
  { State.resetOf (cfgOf n policy) with
    fsm := .ready
    handle := ⟨0x0A⟩
    fb := Memory.number 0 (defaultFrame n)
    busInit := true
    device := some ⟨0x0A⟩ }

/-- A FLUSH accepted and not yet submitted. -/
def submitting (policy : StatusPolicy := .surface) : State := { ready 3 policy with fsm := .submit }

/-- A transfer under token 5 in flight. -/
def waiting (policy : StatusPolicy := .surface) : State :=
  { ready 3 policy with
    fsm := .wait
    pendId := ⟨5⟩
    inFlight := [⟨⟨0x0A⟩, ⟨5⟩, 4096, 176#32⟩] }

/-- CFG_ERROR as INIT_ERR leaves it. -/
def failed : State :=
  { State.resetOf (cfgOf 3 .surface) with fsm := .cfgError, stkConfig := true }

/-- The draw that answers nothing and polls PENDING. -/
def silent : Draw := ⟨none, none, none, .pending, []⟩

def withDraw (s : State) (d : Draw) : State := { s with script := [d] }

/-- What one step leaves of a state: `f` of the next state, none where it stops. -/
def after {α : Type} (o : Answer) (f : State → α) : Option α :=
  match o with
  | .next t => some (f t)
  | .fault _ => none
  | .refused _ => none

/-- The code and data of the newest response. -/
def lastResponse (s : State) : Option (Nat × Nat) :=
  s.responses.getLast?.map fun r => (r.code.toNat, r.data.toNat)

/-! ## What is refused -/

/-- 30_encoding.md R75: each field of a line has its own bound. -/
theorem test_line_idx : assemble (.setPixel 65536 0 0 0 0) = none := by decide
theorem test_line_red : assemble (.setPixel 0 256 0 0 0) = none := by decide
theorem test_line_green : assemble (.setPixel 0 0 256 0 0) = none := by decide
theorem test_line_blue : assemble (.setPixel 0 0 0 256 0) = none := by decide
theorem test_line_bri : assemble (.setPixel 0 0 0 0 256) = none := by decide
theorem test_line_off : assemble (.readByte 16777216) = none := by decide
theorem test_line_word : assemble (.word 18446744073709551616) = none := by decide

/-- The largest numbers that fit are assembled: V3 gives both words. -/
theorem test_line_largest :
    assemble (.setPixel 65535 255 255 255 255) = some 0x10FFFFFFFFFFFF00#64 ∧
    assemble (.readByte 16777215) = some 0x3000000000FFFFFF#64 := by decide

/-- 95_test_vectors.md P5: a line with decimal and hexadecimal numbers and a comment. -/
theorem test_text_setPixel :
    assembleLine "SET_PIXEL 16, 0x12, 0x34, 0x56, 13   ; .word".toList =
      some [0x1000101234560D00#64] := by decide

/-- P3 and P4: a raw word, a command without operands, a line with a comment only. -/
theorem test_text_others :
    assembleLine "    .word 0x2000000000000001".toList = some [0x2000000000000001#64] ∧
    assembleLine "FLUSH".toList = some [0x2000000000000000#64] ∧
    assembleLine "READ_BYTE 0x44 ; reset segment".toList = some [0x3000000000000044#64] ∧
    assembleLine "; two flushes".toList = some [] := by decide

/-- Lines that are no command: a missing operand, an unknown mnemonic, no digits, a value too large. -/
theorem test_text_refused :
    assembleLine "SET_PIXEL 1, 2, 3, 4".toList = none ∧ assembleLine "HALT".toList = none ∧
    assembleLine "READ_BYTE 0x".toList = none ∧ assembleLine "READ_BYTE 16777216".toList = none := by
  decide

/-- A program gives the words of its lines in order. -/
theorem test_text_program :
    assembleProgram ["FLUSH".toList, [], "GET_LENGTH".toList] =
      some [0x2000000000000000#64, 0x4000000000000000#64] := by decide

/-- Every command is well formed: its fields have exactly the encoded widths. -/
theorem test_wellFormed : Instr.wellFormed (.setPixel 65535 255 255 255 255) = true := by decide

/-- 00_scope.md R8: the three grounds for refusing a configuration, and both ends of the legal
range. -/
theorem test_config_zero : (cfgOf 0 .surface).legal = false := by decide
theorem test_config_large : (cfgOf 65536 .surface).legal = false := by decide
theorem test_config_queue : ({ cfgOf 3 .surface with queueDepth := 2 }).legal = false := by decide
theorem test_config_bounds :
    (cfgOf 1 .surface).legal = true ∧ (cfgOf 65535 .discard).legal = true := by decide

/-! ## Words written out from the formats (30_encoding.md R62 to R65) -/

/-- SET_PIXEL 1, 255, 0, 0, 50: opcode, reserved, IDX, RED, GREEN, BLUE, BRI, reserved. -/
theorem test_decode_setPixel :
    decode (0b0001#4 ++ 0b0000#4 ++ 0b0000000000000001#16 ++ 0b11111111#8 ++ 0b00000000#8 ++
      0b00000000#8 ++ 0b00110010#8 ++ 0b00000000#8) = .command (.setPixel 1 255 0 0 50) := by
  decide

/-- Five different fields, each at its own place. -/
theorem test_decode_setPixel_fields :
    decode (0b0001#4 ++ 0b0000#4 ++ 0b1000000000000001#16 ++ 0b00000010#8 ++ 0b00000011#8 ++
      0b00000100#8 ++ 0b00000101#8 ++ 0b00000000#8) = .command (.setPixel 32769 2 3 4 5) := by
  decide

theorem test_decode_flush : decode (0b0010#4 ++ 0#60) = .command .flush := by decide

/-- READ_BYTE 0x800001: opcode, reserved, OFF. -/
theorem test_decode_readByte :
    decode (0b0011#4 ++ 0#36 ++ 0b100000000000000000000001#24) = .command (.readByte 0x800001) := by
  decide

theorem test_decode_getLength : decode (0b0100#4 ++ 0#60) = .command .getLength := by decide

/-- The ILLEGAL rows of V3. -/
theorem test_decode_illegal :
    decode 0x110001FF00003200#64 = .illegal .reservedBits ∧
    decode 0x100001FF00003280#64 = .illegal .reservedBits ∧
    decode 0x2000000000000001#64 = .illegal .reservedBits ∧
    decode 0x3000000001000008#64 = .illegal .reservedBits ∧
    decode 0x40000000000000FF#64 = .illegal .reservedBits ∧
    decode 0x0000000000000000#64 = .illegal .reservedOpcode ∧
    decode 0x5000000000000000#64 = .illegal .reservedOpcode ∧
    decode 0xFFFFFFFFFFFFFFFF#64 = .illegal .reservedOpcode := by decide

/-- The rows of spec/opcode_table.json, as the table numbers their bits. -/
theorem test_tableWord :
    decodeTableWord 64 0x1000000000000000 = some (.setPixel 0 0 0 0 0) ∧
    decodeTableWord 64 0x2000000000000000 = some .flush ∧
    decodeTableWord 64 0x3000000000000000 = some (.readByte 0) ∧
    decodeTableWord 64 0x4000000000000000 = some .getLength ∧
    decodeTableWord 64 0 = none := by decide

/-! ## The codec and the lengths -/

/-- S2 and S3. -/
theorem test_bcode :
    bcode (-5) = 0 ∧ bcode 0 = 0 ∧ bcode 1 = 1 ∧ bcode 8 = 1 ∧ bcode 9 = 0 ∧ bcode 50 = 14 ∧
    bcode 99 = 30 ∧ bcode 100 = 31 ∧ bcode 255 = 31 := by decide

/-- V2: blue stands before green before red. -/
theorem test_encodePixel :
    encodePixel 18 52 86 13 = [0xE2#8, 0x56#8, 0x34#8, 0x12#8] ∧
    encodePixel 170 187 204 99 = [0xFE#8, 0xCC#8, 0xBB#8, 0xAA#8] := by decide

/-- V5, where the ceiling and the floor differ and where they agree. -/
theorem test_frameLen :
    frameLen 1 = 14 ∧ frameLen 15 = 70 ∧ frameLen 16 = 74 ∧ frameLen 17 = 79 ∧
    frameLen 33 = 144 ∧ frameLen 65535 = 266245 := by decide

/-- S5, before. -/
theorem test_defaultFrame :
    defaultFrame 3 =
      [0x00#8, 0x00#8, 0x00#8, 0x00#8, 0xE1#8, 0x00#8, 0x00#8, 0x00#8, 0xE1#8, 0x00#8, 0x00#8,
        0x00#8, 0xE1#8, 0x00#8, 0x00#8, 0x00#8, 0x00#8, 0x00#8, 0x00#8, 0x00#8, 0x00#8, 0x00#8] := by
  decide

/-- S9: 0xE1 is driven most significant bit first. -/
theorem test_wireBits :
    wireBits [0xE1#8] = [true, true, true, false, false, false, false, true] := by decide

/-! ## One step of each command (V4) -/

/-- SET_PIXEL 1, 255, 0, 0, 50 on N = 3 (S5). -/
theorem test_step_setPixel :
    after (step ((ready 3).presenting 0x100001FF00003200#64)) (fun t =>
      (t.memRead 7 6, lastResponse t, t.status)) =
    some (some [0x00#8, 0xEE#8, 0x00#8, 0x00#8, 0xFF#8, 0xE1#8], some (0, 0), 0x0003#16) := by
  decide

/-- SET_PIXEL 3 on N = 3 is out of range. -/
theorem test_step_setPixel_outOfRange :
    after (step ((ready 3).presenting 0x1000030102030400#64)) (fun t =>
      (decide (t.fb = (ready 3).fb), lastResponse t, t.status)) =
    some (true, some (2, 0), 0x0203#16) := by decide

/-- FLUSH: no response in the accepting step (V6). -/
theorem test_step_flush :
    after (step ((ready 3).presenting 0x2000000000000000#64)) (fun t =>
      (t.fsm, lastResponse t, t.status)) = some (.submit, none, 0x000C#16) := by decide

theorem test_step_readByte :
    after (step ((ready 3).presenting 0x3000000000000004#64)) (fun t =>
      (lastResponse t, t.status)) = some (some (0, 0xE1), 0x0003#16) := by decide

/-- READ_BYTE 22 on N = 3 is the first offset past the frame. -/
theorem test_step_readByte_outOfRange :
    after (step ((ready 3).presenting 0x3000000000000016#64)) (fun t =>
      (lastResponse t, t.status)) = some (some (2, 0), 0x0203#16) := by decide

theorem test_step_getLength :
    after (step ((ready 3).presenting 0x4000000000000000#64)) (fun t =>
      (lastResponse t, t.status)) = some (some (0, 3), 0x0003#16) := by decide

/-- V8: bit 56 of SET_PIXEL 3 is reserved, so no range check is made. -/
theorem test_step_illegal :
    after (step ((ready 3).presenting 0x1100030102030400#64)) (fun t =>
      (lastResponse t, t.status)) = some (some (1, 0), 0x0103#16) := by decide

/-- V8, P4: CFG_ERROR answers an illegal word ERR_CONFIG and sets no bit. -/
theorem test_step_cfgError :
    after (step (failed.presenting 0x0000000000000000#64)) (fun t =>
      (lastResponse t, t.status)) = some (some (5, 0), 0x0806#16) := by decide

/-- The first step after reset runs each command word the host places. -/
theorem test_withFetchWord :
    (step (State.reset.withFetchWord 64 0x2000000000000000) =
      exec .flush (State.reset.withFetchWord 64 0x2000000000000000)) ∧
    after (step (State.reset.withFetchWord 64 0x4000000000000000)) lastResponse =
      some (some (0, 512)) := by
  exact ⟨rfl, by decide⟩

/-! ## BLOCK's own steps (V6, V7) -/

theorem test_initBus_ok :
    after (step (withDraw (State.resetOf (cfgOf 3 .surface)) { silent with init := some .initOk }))
      (fun t => (t.status, t.requests)) =
    some (0x0009#16, [.init 2 ⟨7, 6, 0⟩ .auto]) := by decide

theorem test_initBus_err :
    after (step (withDraw (State.resetOf (cfgOf 3 .surface)) { silent with init := some .initErr }))
      (fun t => (t.status, lastResponse t)) = some (0x0806#16, none) := by decide

theorem test_submit_accept :
    after (step (withDraw submitting { silent with submit := some (.accept ⟨5⟩) })) (fun t =>
      (t.pendId, t.status, t.requests)) =
    some (⟨5⟩, 0x001D#16, [.submit ⟨0x0A⟩ 4096 176#32]) := by decide

theorem test_submit_reject :
    after (step (withDraw submitting { silent with submit := some .reject })) (fun t =>
      (lastResponse t, t.status)) = some (some (3, 0), 0x0403#16) := by decide

/-- S9: 176 bits, and bits 32 to 39 are those of the header 0xE1 of pixel 0. -/
theorem test_poll_doneOk :
    after (step (withDraw waiting { silent with poll := .doneOk })) (fun t =>
      (lastResponse t, t.status,
        t.wires.map fun w => (w.ok, w.bits.length, (w.bits.drop 32).take 8))) =
    some (some (0, 0), 0x0003#16,
      [(true, 176, [true, true, true, false, false, false, false, true])]) := by rfl

theorem test_poll_doneErr :
    after (step (withDraw waiting { silent with poll := .doneErr })) (fun t =>
      (lastResponse t, t.status)) = some (some (4, 0), 0x0403#16) ∧
    after (step (withDraw (waiting .discard) { silent with poll := .doneErr })) (fun t =>
      (lastResponse t, t.status)) = some (some (0, 0), 0x0003#16) := by decide

/-- 70_reset_and_hazards.md R158, R159: reset in WAIT, with no response. -/
theorem test_reset_in_wait :
    after (step { waiting with host := [.reset], script := [silent] }) (fun t =>
      (t.status, lastResponse t, t.inFlight, t.device)) =
    some (0x0008#16, none, [], none) := by decide

/-! ## States that meet the hypotheses of the statements -/

theorem read_ready (k : Nat) : (ready 3).fb.read k = (defaultFrame 3)[k]? := by
  simp [ready, Memory.read_number]

theorem frame_ready : FrameOk (ready 3) where
  extent k := by
    rw [read_ready, show frameLen (ready 3).cfg.n = (defaultFrame 3).length from rfl]
    simp
  zeros k h := by
    by_cases hk : k < 22
    · rw [read_ready]
      revert h
      exact (show ∀ k < 22, (segmentOf 3 k).isZero = true → (defaultFrame 3)[k]? = some 0x00#8 by
        decide) k hk
    · exfalso
      change (segmentOf 3 k).isZero = true at h
      rw [segmentOf, if_neg (by omega), if_neg (by omega), if_neg (by omega),
        if_neg (show ¬k < frameLen 3 from hk)] at h
      exact Bool.noConfusion h
  headers i hi := by
    refine ⟨1, by decide, ?_⟩
    rw [read_ready]
    exact (show ∀ i < 3, (defaultFrame 3)[4 + 4 * i]? = some (headerByte 1) by decide) i hi

/-- The invariant holds in READY after boot. -/
theorem ready_inv : (ready 3).Inv where
  legal := by decide
  fbWf := by decide
  frame _ := frame_ready
  unfilled := by decide
  waiting := by decide
  noTransfer := by decide
  device := by decide
  busDown := by decide
  busUp := by decide
  config := by decide

/-- And in WAIT, with the transfer of PEND_ID in flight. -/
theorem waiting_inv : waiting.Inv where
  legal := by decide
  fbWf := by decide
  frame _ := ⟨frame_ready.extent, frame_ready.zeros, frame_ready.headers⟩
  unfilled := by decide
  waiting := by decide
  noTransfer := by decide
  device := by decide
  busDown := by decide
  busUp := by decide
  config := by decide

/-- Each range of BRIGHTNESS, at its ends: no percentage meets two of the four conditions. -/
theorem witness_BrightnessCodeTable :
    ((0 : Int) ≤ 0) ∧ ((1 : Int) ≤ 1 ∧ (1 : Int) ≤ 8) ∧ ((1 : Int) ≤ 8 ∧ (8 : Int) ≤ 8) ∧
    ((9 : Int) ≤ 9 ∧ (9 : Int) ≤ 99) ∧ ((9 : Int) ≤ 99 ∧ (99 : Int) ≤ 99) ∧ ((100 : Int) ≤ 100) := by
  decide

theorem witness_BrightnessLutEntries :
    (1 ≤ (8#8).toNat ∧ (8#8).toNat ≤ 8) ∧ ((9#8).toNat = 9) ∧
    (3 * 1 + 7 ≤ (10#8).toNat ∧ (10#8).toNat ≤ 3 * 1 + 9) ∧
    (3 * 30 + 7 ≤ (99#8).toNat ∧ (99#8).toNat ≤ 3 * 30 + 9) ∧ (100 ≤ (255#8).toNat) := by decide

/-- Both ranges without the step from 8 to 9. -/
theorem witness_BrightnessCodeDropsOnlyAtNine :
    ((7 : Int) ≤ 8 ∧ (8 : Int) ≤ 8) ∧ ((9 : Int) ≤ 9 ∧ (9 : Int) ≤ 10) := by decide

theorem witness_HeaderByteHoldsMarkerAndCode :
    0xE0 ≤ (0xE0#8).toNat ∧ 0xE0 ≤ (0xFF#8).toNat := by decide

/-- The last offset of each segment of `N = 3` and the first past the frame. -/
theorem witness_SegmentsOfTheFrame :
    (3 < 4) ∧ (4 ≤ 15 ∧ 15 < 4 + 4 * 3) ∧ (4 + 4 * 3 ≤ 19 ∧ 19 < 8 + 4 * 3) ∧
    (8 + 4 * 3 ≤ 21 ∧ 21 < frameLen 3) ∧ (frameLen 3 ≤ 22) ∧ (2 < 3 ∧ 3 < 4) := by decide

theorem witness_DefaultFrameBytes :
    (21 < frameLen 3 ∧ (segmentOf 3 21).isZero = true) ∧
    (4 < frameLen 3 ∧ segmentOf 3 4 = .pixel 0 0) ∧ (15 < frameLen 3 ∧ segmentOf 3 15 = .pixel 2 3) := by
  decide

theorem witness_SubmittedLengthIsExact : (1 ≤ 1 ∧ 1 ≤ 65535) ∧ (1 ≤ 65535 ∧ 65535 ≤ 65535) := by
  decide

/-- Each ground for a refusal, and a configuration that has a block. -/
theorem witness_IllegalConfigurationHasNoBlock :
    (cfgOf 0 .surface).n = 0 ∧ 65535 < (cfgOf 65536 .surface).n ∧
    { cfgOf 3 .surface with queueDepth := 2 }.queueDepth ≠ 1 ∧
    (1 ≤ (cfgOf 65535 .surface).n ∧ (cfgOf 65535 .surface).n ≤ 65535 ∧
      (cfgOf 65535 .surface).queueDepth = 1) := by decide

theorem witness_DecodeInvertsEncode : Instr.wellFormed (.readByte 16777215) = true := by decide

theorem witness_EncodeInvertsDecode :
    decode 0x3000000000FFFFFF#64 = .command (.readByte 16777215) := by decide

theorem witness_DecodeFollowsThePatterns :
    0x10FFFFFFFFFFFF00#64 &&& 0xFF000000000000FF#64 = 0x1000000000000000#64 ∧
    0x3000000000FFFFFF#64 &&& 0xFFFFFFFFFF000000#64 = 0x3000000000000000#64 ∧
    (0x110001FF00003200#64 &&& 0xFF000000000000FF#64 ≠ 0x1000000000000000#64 ∧
      0x110001FF00003200#64 ≠ 0x2000000000000000#64 ∧
      0x110001FF00003200#64 &&& 0xFFFFFFFFFF000000#64 ≠ 0x3000000000000000#64 ∧
      0x110001FF00003200#64 ≠ 0x4000000000000000#64) := by decide

theorem witness_ReservedWordsAreIllegal :
    (0x0FFFFFFFFFFFFFFF#64).extractLsb' 60 4 = 0x0#4 ∧
    5 ≤ ((0x5000000000000000#64).extractLsb' 60 4).toNat ∧
    ((0x1100000000000000#64).extractLsb' 60 4 = 0x1#4 ∧
      (0x1100000000000000#64).extractLsb' 56 4 ≠ 0#4) ∧
    ((0x1000000000000001#64).extractLsb' 60 4 = 0x1#4 ∧
      (0x1000000000000001#64).extractLsb' 0 8 ≠ 0#8) ∧
    ((0x2800000000000000#64).extractLsb' 60 4 = 0x2#4 ∧
      (0x2800000000000000#64).extractLsb' 0 60 ≠ 0#60) ∧
    ((0x40000000000000FF#64).extractLsb' 60 4 = 0x4#4 ∧
      (0x40000000000000FF#64).extractLsb' 0 60 ≠ 0#60) ∧
    ((0x3000000001000008#64).extractLsb' 60 4 = 0x3#4 ∧
      (0x3000000001000008#64).extractLsb' 24 36 ≠ 0#36) := by decide

/-- Each bound from both sides. -/
theorem witness_AssembledLinesDecodeToTheirCommand :
    (65535 < 2 ^ 16 ∧ 255 < 256 ∧ 255 < 2 ^ 8 ∧ 2 ^ 16 ≤ 65536 ∧ 256 ≤ 256 ∧ 2 ^ 8 ≤ 256) ∧
    (16777215 < 2 ^ 24 ∧ 2 ^ 24 ≤ 16777216) ∧
    (18446744073709551615 < 2 ^ 64 ∧ 2 ^ 64 ≤ 18446744073709551616) := by decide

/-- The last pixel of the chain. -/
theorem witness_SetPixelWritesItsPixelWord :
    (ready 3).fsm = .ready ∧ (2#16).toNat < (ready 3).cfg.n := by decide

/-- The first index past the chain. -/
theorem witness_SetPixelOutOfRange :
    (ready 3).fsm = .ready ∧ (ready 3).cfg.n ≤ (3#16).toNat := by decide

/-- Three SET_PIXELs in a row, the last one on the state after the second. -/
theorem witness_SetPixelIdempotentLastWins :
    ∃ t u v, exec (.setPixel 1 1 2 3 4) (ready 3) = .next t ∧
      exec (.setPixel 1 1 2 3 4) t = .next u ∧ exec (.setPixel 1 9 8 7 100) (ready 3) = .next v ∧
      ∃ u', exec (.setPixel 1 9 8 7 100) t = .next u' :=
  ⟨_, _, _, rfl, rfl, rfl, _, rfl⟩

/-- The last byte of the frame. -/
theorem witness_ReadByteAnswersTheByte :
    (ready 3).fsm = .ready ∧ (21#24).toNat < frameLen (ready 3).cfg.n ∧
    (ready 3).fb.read (21#24).toNat = some 0x00#8 := by decide

/-- The first offset past the frame. -/
theorem witness_ReadByteOutOfRange :
    (ready 3).fsm = .ready ∧ frameLen (ready 3).cfg.n ≤ (22#24).toNat := by decide

/-- No run reaches this state. -/
theorem witness_ReadByteOfNoValueFaults :
    ({ ready 3 with fb := [] }).fsm = .ready ∧
    (21#24).toNat < frameLen ({ ready 3 with fb := [] }).cfg.n ∧
    ({ ready 3 with fb := [] }).fb.read (21#24).toNat = none := by decide

theorem witness_GetLengthAnswersN :
    (ready 65535 |>.cfg.legal) = true ∧ (ready 1).fsm = .ready ∧ (ready 1).cfg.legal = true := by
  decide

theorem witness_FlushEntersSubmit : (ready 3).fsm = .ready := by decide

/-- The last byte of the last pixel. -/
theorem witness_ReadByteSeesSetPixel :
    ((ready 3).fsm = .ready ∧ (2#16).toNat < (ready 3).cfg.n ∧ 3 < 4 ∧
      (15#24).toNat = 4 + 4 * (2#16).toNat + 3 ∧
      (encodePixel 9 8 7 ((100#8).toNat : Int))[3]? = some 9#8) ∧
    ∃ t, exec (.setPixel 2 9 8 7 100) (ready 3) = .next t := ⟨by decide, _, rfl⟩

theorem witness_SetPixelFrame :
    (∃ t, exec (.setPixel 2 9 8 7 100) (ready 3) = .next t) ∧
    (∃ t, exec (.setPixel 3 9 8 7 100) (ready 3) = .next t) ∧
    ¬((ready 3).fsm = .ready ∧ (3#16).toNat < (ready 3).cfg.n) :=
  ⟨⟨_, rfl⟩, ⟨_, rfl⟩, by decide⟩

theorem witness_NonStoringCommandsFrame :
    (∃ t, exec .flush (ready 3) = .next t) ∧ (∃ t, exec (.readByte 22) (ready 3) = .next t) ∧
    (∃ t, exec (.readByte 21) (ready 3) = .next t) ∧ (∃ t, exec .getLength (ready 3) = .next t) :=
  ⟨⟨_, rfl⟩, ⟨_, rfl⟩, ⟨_, rfl⟩, ⟨_, rfl⟩⟩

theorem witness_StepRunsTheDecodedCommand :
    ((ready 3).presenting 0x3000000000000008#64).host = .present 0x3000000000000008#64 :: [] ∧
    ((ready 3).presenting 0x3000000000000008#64).cmdReady = true ∧
    decode 0x3000000000000008#64 = .command (.readByte 8) ∧
    Instr.wellFormed (.readByte 8) = true := by decide

theorem witness_IllegalWordInReady :
    ((ready 3).presenting 0#64).host = .present 0#64 :: [] ∧
    ((ready 3).presenting 0#64).fsm = .ready ∧ decode 0#64 = .illegal .reservedOpcode := by decide

theorem witness_CfgErrorAnswersEveryWord :
    (failed.presenting 0x2000000000000000#64).host = .present 0x2000000000000000#64 :: [] ∧
    (failed.presenting 0x2000000000000000#64).fsm = .cfgError := by decide

theorem witness_BusyPortHoldsTheWord :
    (submitting.presenting 0x2000000000000000#64).cmdReady = false ∧
    (submitting.presenting 0x2000000000000000#64).host = .present 0x2000000000000000#64 :: [] ∧
    ∃ t, step { submitting.presenting 0x2000000000000000#64 with script := [silent] } = .next t :=
  ⟨by decide, by decide, _, rfl⟩

/-- Quiescent with an idle act to come, and with none. -/
theorem witness_QuiescentStateStays :
    ({ ready 3 with host := [.idle] }).quiescent = true ∧
    ({ ready 3 with host := [.idle] }).resetNext = false ∧
    failed.quiescent = true ∧ failed.host = [] ∧ ((ready 3).quiescent = true ∧ (ready 3).Inv) :=
  ⟨by decide, by decide, by decide, by decide, by decide, ready_inv⟩

theorem witness_OneResponsePerAcceptedWord :
    (∃ t, step ((ready 3).presenting 0x2000000000000000#64) = .next t) ∧
    ((ready 3).presenting 0x2000000000000000#64).resetNext = false := ⟨⟨_, rfl⟩, by decide⟩

/-- Each answer to `xport_init`. -/
theorem witness_InitBusStepOutcomes :
    (State.resetOf (cfgOf 3 .surface)).fsm = .initBus ∧
    (State.resetOf (cfgOf 3 .surface)).resetNext = false ∧
    (withDraw (State.resetOf (cfgOf 3 .surface)) silent).nextDraw.init = none ∧
    (withDraw (State.resetOf (cfgOf 3 .surface))
      { silent with init := some .initOk }).nextDraw.init = some .initOk ∧
    (withDraw (State.resetOf (cfgOf 3 .surface))
      { silent with init := some .initErr }).nextDraw.init = some .initErr := by decide

/-- INIT_ATTACH, and each answer to `xport_attach`. -/
def attaching : State :=
  { State.resetOf (cfgOf 3 .surface) with fsm := .initAttach, busInit := true }

theorem witness_InitAttachStepOutcomes :
    attaching.fsm = .initAttach ∧ attaching.resetNext = false ∧
    (withDraw attaching silent).nextDraw.attach = none ∧
    (withDraw attaching { silent with attach := some (.attachOk ⟨0x0A⟩) }).nextDraw.attach =
      some (.attachOk ⟨0x0A⟩) ∧
    (withDraw attaching { silent with attach := some .attachErr }).nextDraw.attach =
      some .attachErr := by decide

/-- INIT_FILL, with FB still without a value. -/
theorem witness_InitFillWritesTheDefaultFrame :
    ({ attaching with fsm := .initFill }).fsm = .initFill ∧
    ({ attaching with fsm := .initFill }).resetNext = false ∧
    (21 < frameLen 3 ∧ (segmentOf 3 21).isZero = true ∧ segmentOf 3 15 = .pixel 2 3) := by decide

theorem witness_BootReachesReady :
    (cfgOf 3 .surface).legal = true ∧ ({ silent with init := some .initOk }).init = some .initOk ∧
    ({ silent with attach := some (.attachOk ⟨0x0A⟩) }).attach = some (.attachOk ⟨0x0A⟩) := by decide

/-- Each answer to `xport_submit`. -/
theorem witness_SubmitStepOutcomes :
    submitting.fsm = .submit ∧ submitting.resetNext = false ∧
    (withDraw submitting silent).nextDraw.submit = none ∧
    (withDraw submitting { silent with submit := some (.accept ⟨5⟩) }).nextDraw.submit =
      some (.accept ⟨5⟩) ∧
    (withDraw submitting { silent with submit := some .reject }).nextDraw.submit = some .reject := by
  decide

theorem witness_PendingPollChangesNothing :
    waiting.fsm = .wait ∧ waiting.resetNext = false ∧
    (withDraw waiting silent).nextDraw.poll = .pending := by decide

theorem witness_DoneOkAnswersTheFlush :
    waiting.fsm = .wait ∧ waiting.resetNext = false ∧
    (withDraw waiting { silent with poll := .doneOk }).nextDraw.poll = .doneOk ∧
    waiting.memRead 0 (frameLen waiting.cfg.n) = some (defaultFrame 3) := by decide

/-- Both policies. -/
theorem witness_DoneErrFollowsThePolicy :
    (waiting .discard).fsm = .wait ∧ (waiting .discard).resetNext = false ∧
    (withDraw (waiting .discard) { silent with poll := .doneErr }).nextDraw.poll = .doneErr ∧
    waiting.cfg.statusPolicy = .surface ∧ (waiting .discard).cfg.statusPolicy = .discard := by decide

theorem witness_NoStepWritesTheFrameInFlight :
    (∃ t, step (withDraw waiting silent) = .next t) ∧
    (∃ t, step (withDraw submitting silent) = .next t) ∧
    (withDraw waiting silent).fsm = .wait ∧ (withDraw submitting silent).fsm = .submit ∧
    (withDraw waiting silent).resetNext = false ∧ (withDraw submitting silent).resetNext = false :=
  ⟨⟨_, rfl⟩, ⟨_, rfl⟩, by decide, by decide, by decide, by decide⟩

theorem witness_WireStreamBitOrder : 7 < 8 ∧ [0x00#8, 0xE1#8][1]? = some 0xE1#8 := by decide

/-- READY with a FLUSH presented, a word held after it, and a transport that takes its time. -/
def flushed : State :=
  { ready 3 with
    host := [.present 0x2000000000000000#64, .present 0x4000000000000000#64]
    script := flushScript 1 2 ⟨5⟩ .doneOk ++ [silent] }

theorem witness_FlushTransmitsTheAcceptedFrame :
    flushed.Inv ∧ flushed.fsm = .ready ∧
    flushed.host = .present 0x2000000000000000#64 :: [.present 0x4000000000000000#64] ∧
    (∃ w r, [HostEvent.present 0x4000000000000000#64] = .present w :: r) ∧
    flushed.script = flushScript 1 2 ⟨5⟩ .doneOk ++ [silent] :=
  ⟨⟨by decide, by decide, fun _ => ⟨frame_ready.extent, frame_ready.zeros, frame_ready.headers⟩,
    by decide, by decide, by decide, by decide, by decide, by decide, by decide⟩,
    rfl, rfl, ⟨_, _, rfl⟩, rfl⟩

/-- Two unanswered steps in SUBMIT, and two in WAIT. -/
theorem witness_UnansweredFlushHangs :
    2 ≤ [silent, silent].length ∧ (∀ e ∈ submitting.host, e ≠ .reset) ∧
    submitting.fsm = .submit ∧ (∀ d ∈ [silent, silent].take 2, d.submit = none) ∧
    waiting.fsm = .wait ∧ (∀ d ∈ [silent, silent].take 2, d.poll = .pending) := by decide

theorem witness_PlatformResetFromAnyState :
    ({ waiting with host := [.reset] }).host = .reset :: [] := by decide

/-- A state with each value of STATE. -/
theorem witness_StatusFields : ∀ f : Fsm, { ready 3 with fsm := f }.fsm = f := fun _ => rfl

theorem witness_StickyBitsStayUntilReset :
    ((∃ t, step ({ ready 3 with stkIllegal := true, stkPrecond := true, stkTransport := true }
        |>.presenting 0x1000000101010100#64) = .next t) ∧
      ({ ready 3 with stkIllegal := true, stkPrecond := true, stkTransport := true }
        |>.presenting 0x1000000101010100#64).resetNext = false) ∧
    ((∃ t, step { failed with host := [.reset] } = .next t) ∧
      ({ failed with host := [.reset] }).resetNext = true ∧ failed.stkConfig = true) :=
  ⟨⟨⟨_, rfl⟩, by decide⟩, ⟨_, rfl⟩, by decide, by decide⟩

/-- A step that answers a next state, and one that stops, from states with a sticky bit set. -/
theorem witness_NothingDependsOnStickyBits :
    (∃ t, step ({ ready 3 with stkIllegal := true }.presenting 0x4000000000000000#64) = .next t) ∧
    step ({ ready 3 with stkIllegal := true, fb := [] }.presenting 0x3000000000000000#64) =
      .fault (.unfilledByte 0) := ⟨⟨_, rfl⟩, rfl⟩

theorem witness_ConfigurationNeverChanges :
    ∃ t, step ((ready 3).presenting 0x4000000000000000#64) = .next t := ⟨_, rfl⟩

theorem witness_NoOtherTransition :
    ((∃ t, step (withDraw waiting silent) = .next t) ∧ (withDraw waiting silent).resetNext = false) ∧
    ((∃ t, step { failed with host := [.reset] } = .next t) ∧
      ({ failed with host := [.reset] }).resetNext = true) :=
  ⟨⟨⟨_, rfl⟩, by decide⟩, ⟨_, rfl⟩, by decide⟩

theorem witness_CfgErrorIsTerminal :
    (failed.presenting 0x3000000000000000#64).fsm = .cfgError ∧
    (failed.presenting 0x3000000000000000#64).resetNext = false := by decide

/-- Two states that agree on BLOCK's inputs where a word is accepted, from one step that goes on and
one that stops: HOST's later acts, the draws and what was shown before differ. -/
theorem witness_BlockIsAFunctionOfItsInputs :
    SameBlockInputs ((ready 3).presenting 0x4000000000000000#64)
      { (ready 3).presenting 0x4000000000000000#64 with
        host := [.present 0x4000000000000000#64, .idle]
        script := [silent]
        draws := 7
        responses := [⟨0#3, 0#32⟩] } ∧
    (∃ t, step ((ready 3).presenting 0x4000000000000000#64) = .next t) ∧
    SameBlockInputs ({ ready 3 with fb := [] }.presenting 0x3000000000000000#64)
      { ({ ready 3 with fb := [] }.presenting 0x3000000000000000#64) with draws := 7 } ∧
    step ({ ready 3 with fb := [] }.presenting 0x3000000000000000#64) = .fault (.unfilledByte 0) := by
  refine ⟨⟨rfl, rfl, rfl, rfl, rfl, rfl, rfl, rfl, rfl, rfl, rfl, ?_, ?_, ?_, ?_⟩, ⟨_, rfl⟩,
    ⟨rfl, rfl, rfl, rfl, rfl, rfl, rfl, rfl, rfl, rfl, rfl, ?_, ?_, ?_, ?_⟩, rfl⟩ <;>
  exact fun _ h => by cases h

/-- And where TRANSPORT's answer is consumed: in each of the four states the draws agree on it alone,
and HOST holds a word in one of the two states only. -/
theorem witness_BlockIsAFunctionOfItsInputs_answers :
    ∀ f ∈ [Fsm.initBus, Fsm.initAttach, Fsm.submit, Fsm.wait],
      SameBlockInputs { ready 3 with fsm := f, script := [silent] }
        { ready 3 with
          fsm := f
          host := [.present 0x4000000000000000#64]
          script :=
            [⟨if f = .initBus then none else some .initErr,
              if f = .initAttach then none else some .attachErr,
              if f = .submit then none else some .reject,
              if f = .wait then .pending else .doneErr, [true]⟩] } := by
  intro f hf
  simp only [List.mem_cons, List.not_mem_nil, or_false] at hf
  rcases hf with rfl | rfl | rfl | rfl <;>
  constructor <;> first | rfl | (intro _ h; first | rfl | cases h)

theorem witness_AtMostOneTransferInFlight : waiting.Inv ∧ waiting.inFlight ≠ [] :=
  ⟨waiting_inv, by decide⟩

theorem witness_FilledBufferIsAFrame : (ready 3).Inv ∧ (ready 3).filled = true :=
  ⟨ready_inv, by decide⟩

theorem witness_InvariantAtReset :
    State.build (cfgOf 3 .surface) = some (State.resetOf (cfgOf 3 .surface)) := by decide

theorem witness_EveryStepKeepsTheInvariant : flushed.Inv ∧ ∃ t, step flushed = .next t :=
  ⟨witness_FlushTransmitsTheAcceptedFrame.1, _, rfl⟩

theorem witness_NoReachableStepStops : waiting.Inv := waiting_inv

end Sys2Proof.Tests
end

section
/-!
PROOFS. spec/00_scope.md: the configurations that have a block.
-/

namespace Sys2Proof.Machine

/-- 00_scope.md R7, the two legal ranges with `N_MAX` written out. -/
theorem config_legal_iff (c : Config) :
    c.legal = true ↔ 1 ≤ c.n ∧ c.n ≤ 65535 ∧ c.queueDepth = 1 := by
  simp only [Config.legal, Bool.and_eq_true, decide_eq_true_eq, and_assoc]
  exact Iff.rfl

theorem build_of_legal {c : Config} (h : c.legal = true) :
    State.build c = some (State.resetOf c) := if_pos h

theorem build_of_not_legal {c : Config} (h : ¬ c.legal = true) : State.build c = none := if_neg h

/-- Settles O11: `State.build` answers by `Config.legal`, and the three grounds for a refusal are
the negation of the legal ranges. -/
theorem illegalConfigurationHasNoBlock : Obligations.IllegalConfigurationHasNoBlock := by
  intro c
  constructor
  · intro hbad
    have hillegal : ¬ c.legal = true := by
      rw [config_legal_iff]
      omega
    exact build_of_not_legal hillegal
  · intro hranges
    exact build_of_legal ((config_legal_iff c).mpr hranges)

end Sys2Proof.Machine
end

section
/-!
PROOFS. spec/10_state.md: the command port, the reset values, STATUS, and the configuration as a
constant of the run.
-/

namespace Sys2Proof.Machine

variable {s t : State}

/-! The port. -/

/-- 10_state.md R27. -/
theorem cmdReady_iff : s.cmdReady = true ↔ s.fsm = .ready ∨ s.fsm = .cfgError := by
  refine ⟨cmdReady_cases, ?_⟩
  rintro (h | h) <;> simp [State.cmdReady, h]

/-- BUSY is the complement of `cmd_ready` (10_state.md R25). -/
theorem busy_eq_not_cmdReady (s : State) : s.busy = !s.cmdReady := by
  unfold State.busy State.cmdReady
  cases s.fsm <;> rfl

theorem busy_iff :
    s.busy = true ↔ s.fsm = .initBus ∨ s.fsm = .initAttach ∨ s.fsm = .initFill ∨
      s.fsm = .submit ∨ s.fsm = .wait := by
  unfold State.busy
  cases s.fsm <;> simp

/-- A word presented to a busy port is not accepted (43_strip_driver.md R123), and BLOCK takes its
own step. -/
theorem step_of_presented_busy {w : Word} {rest : List HostEvent}
    (hh : s.host = .present w :: rest) (hb : s.cmdReady = false) : step s = ownStepAt s := by
  have haccepts : s.acceptsNow = false := by simp [State.acceptsNow, hb]
  have hreset : s.resetNext = false := by simp [State.resetNext, hh]
  have hidle : s.passIdle = s := passIdle_eq (by simp [dropIdle, hh])
  rw [step_own haccepts hreset, hidle]

/-! What BLOCK's own steps leave unchanged. -/

theorem initBusStep_cfg_host (h : initBusStep s = .next t) : t.cfg = s.cfg ∧ t.host = s.host := by
  rcases initBusStep_next h with ⟨-, rfl⟩ | ⟨-, rfl⟩ | ⟨-, rfl⟩ <;> simp

theorem initAttachStep_cfg_host (h : initAttachStep s = .next t) :
    t.cfg = s.cfg ∧ t.host = s.host := by
  rcases initAttachStep_next h with ⟨-, rfl⟩ | ⟨_, -, rfl⟩ | ⟨-, rfl⟩ <;> simp

theorem submitStep_cfg_host (h : submitStep s = .next t) : t.cfg = s.cfg ∧ t.host = s.host := by
  rcases submitStep_next h with ⟨-, rfl⟩ | ⟨_, -, rfl⟩ | ⟨-, rfl⟩ <;> simp

theorem waitStep_cfg_host (h : waitStep s = .next t) : t.cfg = s.cfg ∧ t.host = s.host := by
  rcases waitStep_next h with ⟨-, rfl⟩ | ⟨-, _, -, rfl⟩ | ⟨-, -, rfl⟩ | ⟨-, -, rfl⟩ <;> simp

/-- BLOCK's own step changes neither the parameters nor what HOST is about to do. -/
theorem ownStepAt_cfg_host (h : ownStepAt s = .next t) : t.cfg = s.cfg ∧ t.host = s.host := by
  rcases ownStepAt_next h with ⟨-, h⟩ | ⟨-, h⟩ | ⟨-, rfl⟩ | ⟨-, h⟩ | ⟨-, h⟩ | ⟨-, rfl⟩
  · exact initBusStep_cfg_host h
  · exact initAttachStep_cfg_host h
  · simp
  · exact submitStep_cfg_host h
  · exact waitStep_cfg_host h
  · simp

/-- Settles O32: a busy port takes no dispatch step, and no step of BLOCK's own touches HOST's
word. -/
theorem busyPortHoldsTheWord : Obligations.BusyPortHoldsTheWord := by
  refine ⟨fun _ => cmdReady_iff, fun _ i hb => exec_held i hb, ?_⟩
  intro s t w rest hh hb hstep
  rw [step_of_presented_busy hh hb] at hstep
  exact (ownStepAt_cfg_host hstep).2

/-! The configuration. -/

@[simp] theorem platformReset_cfg (s : State) : (platformReset s).cfg = s.cfg := rfl

theorem exec_cfg {i : Instr} (h : exec i s = .next t) : t.cfg = s.cfg := by
  rcases exec_next h with
    ⟨-, rfl | ⟨_, _, _, _, _, -, -, rfl⟩ | ⟨_, rfl⟩ | ⟨-, rfl⟩⟩ | ⟨-, rfl⟩ | ⟨-, rfl⟩ <;> simp

theorem illegalStep_cfg (h : illegalStep s = .next t) : t.cfg = s.cfg := by
  rcases illegalStep_next h with ⟨-, rfl⟩ | ⟨-, rfl⟩ | ⟨-, rfl⟩ <;> simp

/-- Settles O52, by the kinds of step: a platform reset, an accepted word, BLOCK's own step. -/
theorem configurationNeverChanges : Obligations.ConfigurationNeverChanges := by
  intro s t hstep
  rcases step_next hstep with ⟨-, rfl⟩ | ⟨-, -, ⟨_, -, h⟩ | ⟨-, h⟩⟩ | ⟨-, -, h⟩
  · exact platformReset_cfg s
  · exact exec_cfg h
  · exact illegalStep_cfg h
  · exact (ownStepAt_cfg_host h).1

/-! STATUS, field by field (10_state.md R25). -/

/-- The fields of STATUS above STATE, from bit 3 up, the reserved bits between them included. -/
def State.statusFlags (s : State) : List Bool :=
  [s.busy, s.inflightBit, false, false, false, s.stkIllegal, s.stkPrecond, s.stkTransport,
    s.stkConfig]

/-- Every bit of STATUS above the STATE field; those past the listed ones are reserved. -/
theorem status_getLsbD_add_three (s : State) (k : Nat) :
    s.status.getLsbD (k + 3) = s.statusFlags.getD k false := by
  simp only [State.status, BitVec.getLsbD_append]
  rcases k with _ | _ | _ | _ | _ | _ | _ | _ | _ | k <;> simp [State.statusFlags]

theorem status_state (s : State) : s.status.extractLsb' 0 3 = s.fsm.code := by
  ext k hk
  simp only [State.status, BitVec.getElem_extractLsb', BitVec.getLsbD_append]
  simp [hk]

theorem status_busy (s : State) : s.status.getLsbD 3 = s.busy := status_getLsbD_add_three s 0

theorem status_inflight (s : State) : s.status.getLsbD 4 = s.inflightBit :=
  status_getLsbD_add_three s 1

theorem status_stkIllegal (s : State) : s.status.getLsbD 8 = s.stkIllegal :=
  status_getLsbD_add_three s 5

theorem status_stkPrecond (s : State) : s.status.getLsbD 9 = s.stkPrecond :=
  status_getLsbD_add_three s 6

theorem status_stkTransport (s : State) : s.status.getLsbD 10 = s.stkTransport :=
  status_getLsbD_add_three s 7

theorem status_stkConfig (s : State) : s.status.getLsbD 11 = s.stkConfig :=
  status_getLsbD_add_three s 8

/-- A run of bits whose flags are all 0 is 0; both reserved fields are such runs. -/
theorem status_extract_zero {lo w : Nat}
    (h : ∀ k < w, s.statusFlags.getD (lo + k) false = false) :
    s.status.extractLsb' (lo + 3) w = 0#w := by
  ext k hk
  rw [BitVec.getElem_extractLsb', Nat.add_right_comm, status_getLsbD_add_three, h k hk,
    BitVec.getElem_zero]

theorem status_reserved_low (s : State) : s.status.extractLsb' 5 3 = 0#3 :=
  status_extract_zero (lo := 2) fun k hk => by interval_cases k <;> rfl

theorem status_reserved_high (s : State) : s.status.extractLsb' 12 4 = 0#4 :=
  status_extract_zero (lo := 9) fun k _ =>
    List.getD_eq_default _ _ (Nat.le_add_right s.statusFlags.length k)

/-- The STATE field holds the code of 10_state.md R20. -/
theorem status_state_of_fsm {f : Fsm} (h : s.fsm = f) : s.status.extractLsb' 0 3 = f.code := by
  rw [status_state, h]

/-- Settles O49, from the lemma of each field. -/
theorem statusFields : Obligations.StatusFields := by
  intro s
  refine ⟨status_state_of_fsm, status_state_of_fsm, status_state_of_fsm, status_state_of_fsm,
    status_state_of_fsm, status_state_of_fsm, status_state_of_fsm, status_state s, ?_, ?_, ?_,
    status_reserved_low s, status_stkIllegal s, status_stkPrecond s, status_stkTransport s,
    status_stkConfig s, status_reserved_high s⟩
  · rw [status_busy, busy_eq_not_cmdReady]
  · rw [status_busy, busy_iff]
  · rw [status_inflight, State.inflightBit, decide_eq_true_iff]

/-! The reset state. -/

@[simp] theorem resetOf_fsm (c : Config) : (State.resetOf c).fsm = .initBus := rfl
@[simp] theorem resetOf_stkIllegal (c : Config) : (State.resetOf c).stkIllegal = false := rfl
@[simp] theorem resetOf_stkPrecond (c : Config) : (State.resetOf c).stkPrecond = false := rfl
@[simp] theorem resetOf_stkTransport (c : Config) : (State.resetOf c).stkTransport = false := rfl
@[simp] theorem resetOf_stkConfig (c : Config) : (State.resetOf c).stkConfig = false := rfl
@[simp] theorem resetOf_cmdReady (c : Config) : (State.resetOf c).cmdReady = false := rfl

/-- Only BUSY is set. -/
@[simp] theorem resetOf_status (c : Config) : (State.resetOf c).status = 0x0008#16 := by
  simp [State.status, State.busy, State.inflightBit, Fsm.code]

/-- Settles O47: the values stand in `State.resetOf`, whatever the configuration. -/
theorem resetValues : Obligations.ResetValues :=
  ⟨rfl, fun c => ⟨resetOf_fsm c, resetOf_stkIllegal c, resetOf_stkPrecond c, resetOf_stkTransport c,
    resetOf_stkConfig c, resetOf_status c, resetOf_cmdReady c⟩⟩

end Sys2Proof.Machine
end

section
/-!
PROOFS. spec/20_memory.md: the segments of the frame buffer, one equation for each row of R39.
-/

namespace Sys2Proof.Machine

variable {n k : Nat}

theorem segmentOf_start (h : k < 4) : segmentOf n k = .start := if_pos h

theorem segmentOf_pixel (hlo : 4 ≤ k) (hhi : k < 4 + 4 * n) :
    segmentOf n k = .pixel ((k - 4) / 4) ((k - 4) % 4) := by
  rw [segmentOf, if_neg hlo.not_gt, if_pos hhi]

theorem segmentOf_reset (hlo : 4 + 4 * n ≤ k) (hhi : k < 8 + 4 * n) :
    segmentOf n k = .reset := by
  have hstart : ¬ k < 4 := by omega
  rw [segmentOf, if_neg hstart, if_neg hlo.not_gt, if_pos hhi]

/-- From the end of the reset segment on, only the frame's length decides. -/
theorem segmentOf_after_reset (hlo : 8 + 4 * n ≤ k) :
    segmentOf n k = if k < frameLen n then .padding else .out := by
  have hstart : ¬ k < 4 := by omega
  have hpixel : ¬ k < 4 + 4 * n := by omega
  rw [segmentOf, if_neg hstart, if_neg hpixel, if_neg hlo.not_gt]

theorem segmentOf_padding (hlo : 8 + 4 * n ≤ k) (hhi : k < frameLen n) :
    segmentOf n k = .padding := by
  rw [segmentOf_after_reset hlo, if_pos hhi]

/-- The frame reaches at least to the end of the reset segment (41_frame_buffer.md R85). -/
theorem reset_end_le_frameLen (n : Nat) : 8 + 4 * n ≤ frameLen n := by
  unfold frameLen
  omega

theorem segmentOf_out (h : frameLen n ≤ k) : segmentOf n k = .out := by
  rw [segmentOf_after_reset ((reset_end_le_frameLen n).trans h), if_neg h.not_gt]

/-- Settles O7, from the equation of each segment. -/
theorem segmentsOfTheFrame : Obligations.SegmentsOfTheFrame := by
  intro n k
  exact ⟨segmentOf_start, segmentOf_pixel, segmentOf_reset, segmentOf_padding, segmentOf_out,
    fun _ _ hi hj => segmentOf_pixelByte hi hj⟩

end Sys2Proof.Machine
end

section
/-!
PROOFS. spec/30_encoding.md: the header byte of a pixel word, and what each command word decodes to.
-/

namespace Sys2Proof.Machine

variable {c : Nat}

/-! The header byte (30_encoding.md R57, 40_pixel_codec.md R80). -/

theorem bcode_le (p : Int) : bcode p ≤ 31 := by
  unfold bcode
  split_ifs <;> omega

/-- The marker and the code do not overlap, so the header byte is their sum. -/
theorem headerByte_toNat (hc : c ≤ 31) : (headerByte c).toNat = 0xE0 + c := by
  have hbyte : c % 2 ^ 8 = c := Nat.mod_eq_of_lt (by omega)
  have hcode : c < 2 ^ 5 := by omega
  calc (headerByte c).toNat
      = 7 <<< 5 ||| c := by rw [headerByte, BitVec.toNat_or, BitVec.toNat_ofNat c, hbyte]; rfl
    _ = 7 <<< 5 + c := (Nat.shiftLeft_add_eq_or_of_lt hcode 7).symm

theorem headerByte_marker (hc : c ≤ 31) : (headerByte c).extractLsb' 5 3 = 0b111#3 := by
  apply BitVec.eq_of_toNat_eq
  rw [BitVec.extractLsb'_toNat, headerByte_toNat hc, Nat.shiftRight_eq_div_pow]
  change (0xE0 + c) / 2 ^ 5 % 2 ^ 3 = 7
  omega

theorem headerByte_code (hc : c ≤ 31) : ((headerByte c).extractLsb' 0 5).toNat = c := by
  rw [BitVec.extractLsb'_toNat, headerByte_toNat hc, Nat.shiftRight_zero]
  omega

theorem headerByte_inj {c' : Nat} (hc : c ≤ 31) (hc' : c' ≤ 31) (h : headerByte c' = headerByte c) :
    c' = c := by
  rw [← headerByte_code hc', h, headerByte_code hc]

theorem eq_headerByte {h : Byte} (hlo : 0xE0 ≤ h.toNat) :
    h.toNat - 0xE0 ≤ 31 ∧ headerByte (h.toNat - 0xE0) = h := by
  have hcode : h.toNat - 0xE0 ≤ 31 := by omega
  refine ⟨hcode, BitVec.eq_of_toNat_eq ?_⟩
  rw [headerByte_toNat hcode]
  omega

/-- Settles O4: byte 0 of a pixel word is `headerByte (bcode p)`, and `headerByte` is a bijection
from the codes to the bytes from 0xE0 on. -/
theorem headerByteHoldsMarkerAndCode : Obligations.HeaderByteHoldsMarkerAndCode := by
  constructor
  · intro r g b p
    have hc := bcode_le p
    have hlo : 0xE0 ≤ (headerByte (bcode p)).toNat := by
      rw [headerByte_toNat hc]
      omega
    exact ⟨headerByte (bcode p), rfl, headerByte_marker hc, headerByte_code hc, hc, hlo⟩
  · intro h hlo
    obtain ⟨hc, hheader⟩ := eq_headerByte hlo
    exact ⟨_, hc, hheader, fun c' hc' h' => headerByte_inj hc hc' (h'.trans hheader.symm)⟩

end Sys2Proof.Machine

namespace Sys2Proof

variable {w : Word}

/-! What a match of a pattern of 30_encoding.md R69 says of the word's fields. -/

/-- Where the mask is all ones, a matching word has the pattern's own bits. -/
theorem extract_of_pattern {mask value : Word} {lo n : Nat} (h : w &&& mask = value)
    (hmask : mask.extractLsb' lo n = BitVec.allOnes n) :
    w.extractLsb' lo n = value.extractLsb' lo n := by
  rw [← h, BitVec.extractLsb'_and, hmask, BitVec.and_allOnes]

theorem opcode_of_setPixel_pattern (h : w &&& 0xFF000000000000FF#64 = 0x1000000000000000#64) :
    opcodeOf w = 0x1#4 := extract_of_pattern h rfl

theorem opcode_of_readByte_pattern (h : w &&& 0xFFFFFFFFFF000000#64 = 0x3000000000000000#64) :
    opcodeOf w = 0x3#4 := extract_of_pattern h rfl

/-- The word is laid out as one of the four commands: a defined opcode, and 0 in every bit its
format reserves (30_encoding.md R62 to R65). -/
def HasFormat (w : Word) : Prop :=
  (opcodeOf w = 0x1#4 ∧ w.extractLsb' 56 4 = 0#4 ∧ w.extractLsb' 0 8 = 0#8) ∨
  (opcodeOf w = 0x2#4 ∧ w.extractLsb' 0 60 = 0#60) ∨
  (opcodeOf w = 0x3#4 ∧ w.extractLsb' 24 36 = 0#36) ∨
  (opcodeOf w = 0x4#4 ∧ w.extractLsb' 0 60 = 0#60)

theorem hasFormat_of_setPixel_pattern
    (h : w &&& 0xFF000000000000FF#64 = 0x1000000000000000#64) : HasFormat w :=
  .inl ⟨opcode_of_setPixel_pattern h, extract_of_pattern h rfl, extract_of_pattern h rfl⟩

theorem hasFormat_flush : HasFormat 0x2000000000000000#64 := .inr (.inl ⟨rfl, rfl⟩)

theorem hasFormat_of_readByte_pattern
    (h : w &&& 0xFFFFFFFFFF000000#64 = 0x3000000000000000#64) : HasFormat w :=
  .inr (.inr (.inl ⟨opcode_of_readByte_pattern h, extract_of_pattern h rfl⟩))

theorem hasFormat_getLength : HasFormat 0x4000000000000000#64 := .inr (.inr (.inr ⟨rfl, rfl⟩))

/-! `decode`, one equation for each pattern and one for the words that match none. -/

theorem decode_of_setPixel_pattern (h : w &&& 0xFF000000000000FF#64 = 0x1000000000000000#64) :
    decode w = .command (.setPixel (w.extractLsb' 40 16) (w.extractLsb' 32 8)
      (w.extractLsb' 24 8) (w.extractLsb' 16 8) (w.extractLsb' 8 8)) := if_pos h

theorem decode_flush : decode 0x2000000000000000#64 = .command .flush := rfl

/-- The two patterns tested before this one have other opcodes. -/
theorem decode_of_readByte_pattern (h : w &&& 0xFFFFFFFFFF000000#64 = 0x3000000000000000#64) :
    decode w = .command (.readByte (w.extractLsb' 0 24)) := by
  have hop := opcode_of_readByte_pattern h
  have hsetPixel : w &&& 0xFF000000000000FF#64 ≠ 0x1000000000000000#64 := fun h' =>
    absurd (hop.symm.trans (opcode_of_setPixel_pattern h')) (by decide)
  have hflush : w ≠ 0x2000000000000000#64 := by
    rintro rfl
    exact absurd hop (by decide)
  rw [decode, if_neg hsetPixel, if_neg hflush, if_pos h]

theorem decode_getLength : decode 0x4000000000000000#64 = .command .getLength := rfl

theorem decode_of_no_pattern (hsetPixel : w &&& 0xFF000000000000FF#64 ≠ 0x1000000000000000#64)
    (hflush : w ≠ 0x2000000000000000#64)
    (hreadByte : w &&& 0xFFFFFFFFFF000000#64 ≠ 0x3000000000000000#64)
    (hgetLength : w ≠ 0x4000000000000000#64) : decode w = .illegal (illegalReason w) := by
  rw [decode, if_neg hsetPixel, if_neg hflush, if_neg hreadByte, if_neg hgetLength]

/-- Settles O14, from the equation of each pattern. -/
theorem decodeFollowsThePatterns : Obligations.DecodeFollowsThePatterns := by
  intro w
  refine ⟨decode_of_setPixel_pattern, ?_, decode_of_readByte_pattern, ?_,
    fun hsetPixel hflush hreadByte hgetLength =>
      ⟨_, decode_of_no_pattern hsetPixel hflush hreadByte hgetLength⟩⟩
  · rintro rfl
    exact decode_flush
  · rintro rfl
    exact decode_getLength

/-! The ILLEGAL words (30_encoding.md R67, R68). -/

/-- The condition `illegalReason` tests. -/
abbrev DefinedOpcode (w : Word) : Prop :=
  opcodeOf w = 0x1#4 ∨ opcodeOf w = 0x2#4 ∨ opcodeOf w = 0x3#4 ∨ opcodeOf w = 0x4#4

theorem definedOpcode_of_hasFormat (h : HasFormat w) : DefinedOpcode w :=
  h.imp And.left (.imp And.left (.imp And.left And.left))

/-- A word without a command's format matches no pattern. -/
theorem decode_of_not_hasFormat (h : ¬ HasFormat w) : decode w = .illegal (illegalReason w) := by
  apply decode_of_no_pattern
  · exact fun h' => h (hasFormat_of_setPixel_pattern h')
  · rintro rfl
    exact h hasFormat_flush
  · exact fun h' => h (hasFormat_of_readByte_pattern h')
  · rintro rfl
    exact h hasFormat_getLength

/-- 30_encoding.md R68. -/
theorem decode_reservedBits (hop : DefinedOpcode w) (h : ¬ HasFormat w) :
    decode w = .illegal .reservedBits := by
  rw [decode_of_not_hasFormat h, illegalReason, if_pos hop]

/-- 30_encoding.md R67. -/
theorem decode_reservedOpcode (hop : ¬ DefinedOpcode w) :
    decode w = .illegal .reservedOpcode := by
  have h : ¬ HasFormat w := fun hformat => hop (definedOpcode_of_hasFormat hformat)
  rw [decode_of_not_hasFormat h, illegalReason, if_neg hop]

/-- Settles O15: under each premise the word has no command's format, and its opcode decides the
reason. -/
theorem reservedWordsAreIllegal : Obligations.ReservedWordsAreIllegal := by
  intro w
  rw [← opcodeOf]
  refine ⟨fun hop => decode_reservedOpcode ?_,
    fun hop hbits => decode_reservedBits (.inl hop) ?_,
    fun hop hbits => decode_reservedBits (hop.elim (.inr ∘ .inl) (.inr ∘ .inr ∘ .inr)) ?_,
    fun hop hbits => decode_reservedBits (.inr (.inr (.inl hop))) ?_⟩
  · rintro (h | h | h | h) <;> simp [h] at hop
  · simpa [HasFormat, hop, imp_iff_not_or] using hbits
  · rcases hop with hop | hop <;> simpa [HasFormat, hop] using hbits
  · simpa [HasFormat, hop] using hbits

end Sys2Proof
end

section
/-!
PROOFS. spec/40_pixel_codec.md: the brightness code, row by row, and the pixel word.
-/

namespace Sys2Proof.Machine

/-! The rows of R77. -/

section

variable {p q : Int}

theorem bcode_of_nonpos (h : p ≤ 0) : bcode p = 0 := if_pos h

theorem bcode_of_low (hlo : 1 ≤ p) (hhi : p ≤ 8) : bcode p = 1 := by
  have hpos : ¬ p ≤ 0 := by omega
  rw [bcode, if_neg hpos, if_pos hhi]

theorem bcode_of_mid (hlo : 9 ≤ p) (hhi : p ≤ 99) : bcode p = ((p - 7) / 3).toNat := by
  have hpos : ¬ p ≤ 0 := by omega
  have hlow : ¬ p ≤ 8 := by omega
  rw [bcode, if_neg hpos, if_neg hlow, if_pos hhi]

theorem bcode_of_saturated (h : 100 ≤ p) : bcode p = 31 := by
  have hpos : ¬ p ≤ 0 := by omega
  have hlow : ¬ p ≤ 8 := by omega
  have hmid : ¬ p ≤ 99 := by omega
  rw [bcode, if_neg hpos, if_neg hlow, if_neg hmid]

/-- The quotient is not negative, so the code is the quotient itself. -/
theorem natCast_bcode_of_mid (hlo : 9 ≤ p) (hhi : p ≤ 99) : (bcode p : Int) = (p - 7) / 3 := by
  rw [bcode_of_mid hlo hhi]
  exact Int.toNat_of_nonneg (by omega)

/-- Each code `c` from 1 to 30 is the code of three percentages in a row (R78). -/
theorem bcode_of_triple {c : Nat} (hc1 : 1 ≤ c) (hc30 : c ≤ 30) (hlo : 3 * (c : Int) + 7 ≤ p)
    (hhi : p ≤ 3 * (c : Int) + 9) : bcode p = c := by
  have hcode : (bcode p : Int) = (p - 7) / 3 := natCast_bcode_of_mid (by omega) (by omega)
  omega

/-- Below 9 the code is 0 and then 1. -/
theorem bcode_mono_below_nine (hpq : p ≤ q) (hq : q ≤ 8) : bcode p ≤ bcode q := by
  rcases le_or_gt p 0 with hp | hp
  · rw [bcode_of_nonpos hp]
    exact Nat.zero_le _
  · rw [bcode_of_low hp (hpq.trans hq), bcode_of_low (lt_of_lt_of_le hp hpq) hq]

/-- From 9 on the quotient grows with `p`, and the greatest code is the saturated one. -/
theorem bcode_mono_from_nine (hp : 9 ≤ p) (hpq : p ≤ q) : bcode p ≤ bcode q := by
  rcases le_or_gt q 99 with hq | hq
  · have hcodep := natCast_bcode_of_mid hp (hpq.trans hq)
    have hcodeq := natCast_bcode_of_mid (hp.trans hpq) hq
    omega
  · rw [bcode_of_saturated hq]
    exact bcode_le p

end

/-- Settles O1, from the equation of each row of R77. -/
theorem brightnessCodeTable : Obligations.BrightnessCodeTable := fun _ =>
  ⟨bcode_of_nonpos, bcode_of_low, natCast_bcode_of_mid, bcode_of_saturated⟩

/-- Settles O2: an entry of the table is the code of the field's value, so the rows of R77 give it.
The entry at 9 is the middle row's only 0. -/
theorem brightnessLutEntries : Obligations.BrightnessLutEntries := by
  intro bri
  unfold brightnessLut
  refine ⟨fun h => bcode_of_nonpos (by omega), fun hlo hhi => bcode_of_low (by omega) (by omega),
    fun h => ?_, fun c hc1 hc30 hlo hhi => bcode_of_triple hc1 hc30 (by omega) (by omega),
    fun h => bcode_of_saturated (by omega)⟩
  rw [h]
  exact bcode_of_mid (by decide) (by decide)

/-- Settles O3, from the two monotone ranges and the rows of R77. -/
theorem brightnessCodeDropsOnlyAtNine : Obligations.BrightnessCodeDropsOnlyAtNine :=
  ⟨fun _ _ => bcode_mono_below_nine, fun _ _ => bcode_mono_from_nine,
    bcode_of_low (by decide) (by decide), bcode_of_mid (by decide) (by decide),
    fun _ => bcode_of_saturated, fun _ => bcode_of_nonpos⟩

/-! The pixel word as the concatenation of its fields (30_encoding.md R57, R58): each field is then
read off by the library's rules for a slice of an append. -/

section

variable (code : BitVec 5) (b g r : Byte)

theorem headerByte_eq_append : headerByte code.toNat = 0b111#3 ++ code := by
  have h : (0b111#3 ++ code).setWidth 8 = 0xE0#8 ||| code.setWidth 8 :=
    BitVec.setWidth_append_eq_shiftLeft_setWidth_or
  rw [headerByte, BitVec.ofNat_toNat, ← h, BitVec.setWidth_eq]

theorem pixelWord32_eq_append :
    pixelWord32 code b g r = headerByte code.toNat ++ b ++ g ++ r := by
  have hheader : (headerByte code.toNat).setWidth 32 =
      (0b111#3).setWidth 32 <<< 5 ||| code.setWidth 32 := by
    rw [headerByte_eq_append, BitVec.setWidth_append_eq_shiftLeft_setWidth_or]
  have happend := BitVec.setWidth_append_append_append_eq_shiftLeft_setWidth_or (w'''' := 32)
    (b := headerByte code.toNat) (b' := b) (b'' := g) (b''' := r)
  rw [hheader, BitVec.shiftLeft_or_distrib, ← BitVec.shiftLeft_add] at happend
  rw [← BitVec.setWidth_eq (headerByte code.toNat ++ b ++ g ++ r)]
  exact happend.symm

theorem pixelWord32_red : (pixelWord32 code b g r).extractLsb' 0 8 = r := by
  rw [pixelWord32_eq_append, BitVec.extractLsb'_append_eq_right]

/-- Above the red byte the word is what stands before it. -/
theorem pixelWord32_above_red {lo n : Nat} (h : 8 ≤ lo) :
    (pixelWord32 code b g r).extractLsb' lo n =
      (headerByte code.toNat ++ b ++ g).extractLsb' (lo - 8) n := by
  rw [pixelWord32_eq_append, BitVec.extractLsb'_append_eq_of_le h]

theorem pixelWord32_green : (pixelWord32 code b g r).extractLsb' 8 8 = g := by
  rw [pixelWord32_above_red code b g r (by decide), BitVec.extractLsb'_append_eq_right]

theorem pixelWord32_blue : (pixelWord32 code b g r).extractLsb' 16 8 = b := by
  rw [pixelWord32_above_red code b g r (by decide),
    BitVec.extractLsb'_append_eq_of_le (by decide), BitVec.extractLsb'_append_eq_right]

/-- The bits from 24 on are the header byte's. -/
theorem pixelWord32_above_blue {lo n : Nat} (h : 24 ≤ lo) :
    (pixelWord32 code b g r).extractLsb' lo n = (headerByte code.toNat).extractLsb' (lo - 24) n := by
  rw [pixelWord32_above_red code b g r (by omega), BitVec.extractLsb'_append_eq_of_le (by omega),
    BitVec.extractLsb'_append_eq_of_le (by omega), Nat.sub_sub, Nat.sub_sub]

theorem pixelWord32_header : (pixelWord32 code b g r).extractLsb' 24 8 = headerByte code.toNat := by
  rw [pixelWord32_above_blue code b g r (by decide), BitVec.extractLsb'_eq_self]

theorem pixelWord32_code : (pixelWord32 code b g r).extractLsb' 24 5 = code := by
  rw [pixelWord32_above_blue code b g r (by decide), headerByte_eq_append,
    BitVec.extractLsb'_append_eq_right]

theorem pixelWord32_marker : (pixelWord32 code b g r).extractLsb' 29 3 = 0b111#3 := by
  rw [pixelWord32_above_blue code b g r (by decide), headerByte_eq_append,
    BitVec.extractLsb'_append_eq_left]

end

/-- R83: 3 % is a percentage of code 1. -/
theorem defaultPixel_bytes : defaultPixel = [0xE1#8, 0x00#8, 0x00#8, 0x00#8] := by
  have hcode : bcode 3 = 1 := bcode_of_low (by decide) (by decide)
  rw [defaultPixel, encodePixel, hcode]
  rfl

/-- R79's example. -/
theorem encodePixel_red_half : encodePixel 255 0 0 50 = [0xEE#8, 0x00#8, 0x00#8, 0xFF#8] := by
  have hcode : bcode 50 = 14 := bcode_of_mid (by decide) (by decide)
  rw [encodePixel, hcode]
  rfl

/-- Settles O5, from the default pixel's bytes and the lemma of each field of the 32-bit view. -/
theorem pixelWordByteOrder : Obligations.PixelWordByteOrder :=
  ⟨fun _ _ _ _ => rfl, encodePixel_red_half, defaultPixel_bytes, rfl, fun code b g r =>
    ⟨pixelWord32_marker code b g r, pixelWord32_code code b g r, pixelWord32_blue code b g r,
      pixelWord32_green code b g r, pixelWord32_red code b g r, pixelWord32_header code b g r⟩⟩

end Sys2Proof.Machine
end

section
/-!
PROOFS. spec/41_frame_buffer.md: the frame's length, the default frame, and the commands that reach
the frame buffer.
-/

namespace Sys2Proof.Machine

/-! The layout (R85). -/

/-- 00_scope.md R12's ceiling is the library's. -/
theorem ceilDiv_eq (a b : Nat) : ceilDiv a b = a ⌈/⌉ b := (Nat.ceilDiv_eq_add_pred_div a b).symm

/-- `ceil(a / b)` is the least `m` with `a ≤ b * m`. -/
theorem ceilDiv_le_iff {a b m : Nat} (hb : 0 < b) : ceilDiv a b ≤ m ↔ a ≤ b * m := by
  rw [ceilDiv_eq, ceilDiv_le_iff_le_mul hb]

/-- Settles O6: `PAD - 1` is the ceiling of N/16, the least number of 16-pixel groups. -/
theorem frameLengthFormula : Obligations.FrameLengthFormula := by
  refine ⟨fun n => ⟨?_, fun m hm => ?_, Nat.le_add_left 1 _, rfl⟩, by decide⟩
  · exact (ceilDiv_le_iff (by decide)).mp le_rfl
  · exact (ceilDiv_le_iff (by decide)).mpr hm

section

variable {n k : Nat}

/-- The zero segments are what the frame holds outside its pixel words (R87). -/
theorem segmentOf_isZero_iff :
    (segmentOf n k).isZero = true ↔ k < frameLen n ∧ ¬(4 ≤ k ∧ k < 4 + 4 * n) := by
  have hlen := reset_end_le_frameLen n
  rcases lt_or_ge k 4 with hstart | hstart
  · simp only [segmentOf_start hstart, Segment.isZero, true_iff]
    omega
  rcases lt_or_ge k (4 + 4 * n) with hpixel | hpixel
  · simp [segmentOf_pixel hstart hpixel, Segment.isZero, hstart, hpixel]
  rcases lt_or_ge k (8 + 4 * n) with hreset | hreset
  · simp only [segmentOf_reset hpixel hreset, Segment.isZero, true_iff]
    omega
  rcases lt_or_ge k (frameLen n) with hpadding | hpadding
  · simp only [segmentOf_padding hreset hpadding, Segment.isZero, true_iff]
    omega
  · simp [segmentOf_out hpadding, Segment.isZero, hpadding.not_gt]

/-- An offset of the pixel segment is byte `j` of pixel word `i`. -/
theorem segmentOf_eq_pixel {i j : Nat} (h : segmentOf n k = .pixel i j) :
    (4 ≤ k ∧ k < 4 + 4 * n) ∧ (k - 4) / 4 = i ∧ (k - 4) % 4 = j := by
  unfold segmentOf at h
  split_ifs at h with hstart hpixel
  cases h
  exact ⟨⟨not_lt.mp hstart, hpixel⟩, rfl, rfl⟩

/-! The default frame (R89). -/

theorem defaultFrame_length (n : Nat) : (defaultFrame n).length = frameLen n := by
  rw [defaultFrame, frameOf_length (by simp), List.length_replicate]

theorem defaultPixel_getElem {j : Nat} (hj : j < 4) :
    defaultPixel[j]? = some (if j = 0 then 0xE1#8 else 0x00#8) := by
  rw [defaultPixel_bytes]
  interval_cases j <;> rfl

/-- Each offset of the default frame holds a byte of the default pixel or 0. -/
theorem defaultFrame_getElem (hk : k < frameLen n) :
    (defaultFrame n)[k]? =
      if 4 ≤ k ∧ k < 4 + 4 * n then defaultPixel[(k - 4) % 4]? else some 0x00#8 := by
  rw [defaultFrame, frameOf_getElem (by simp) (by simpa using hk), List.length_replicate]
  refine if_ctx_congr Iff.rfl (fun hpixel => ?_) fun _ => rfl
  have hword : (k - 4) / 4 < n := by omega
  rw [List.getElem?_replicate, if_pos hword, Option.bind_some]

/-- Settles O8, from the byte at each offset of the default frame. -/
theorem defaultFrameBytes : Obligations.DefaultFrameBytes := by
  refine fun n => ⟨defaultFrame_length n, fun k hk => ⟨fun hzero => ?_, fun i j hpixel => ?_⟩⟩
  · rw [defaultFrame_getElem hk, if_neg (segmentOf_isZero_iff.mp hzero).2]
  · obtain ⟨hrange, -, rfl⟩ := segmentOf_eq_pixel hpixel
    rw [defaultFrame_getElem hk, if_pos hrange, defaultPixel_getElem (Nat.mod_lt _ (by decide))]

end

/-! SET_PIXEL in range (R90, R92, R93). -/

section

variable {s t : State} {idx : BitVec 16} {r g b p : Byte}

/-- Settles O18: the write is of the four bytes at `pixelOffset idx`, and reads elsewhere are as
before it. -/
theorem setPixelWritesItsPixelWord : Obligations.SetPixelWritesItsPixelWord := by
  intro s idx r g b bri hf hi
  have hinside := Memory.read_write_inside s.fb (pixelOffset idx) (encodePixel r g b bri.toNat)
  have houtside := Memory.read_write_outside s.fb (pixelOffset idx) (encodePixel r g b bri.toNat)
  exact ⟨_, execSetPixel_inRange hf hi, rfl, hinside 0 (by simp), hinside 1 (by simp),
    hinside 2 (by simp), hinside 3 (by simp), houtside⟩

/-- SET_PIXEL changes neither STATE nor the parameters, whatever it answers. -/
theorem execSetPixel_fsm_cfg (h : execSetPixel idx r g b p s = .next t) :
    t.fsm = s.fsm ∧ t.cfg = s.cfg := by
  rcases execSetPixel_next h with ⟨-, -, rfl⟩ | ⟨-, -, rfl⟩ | ⟨-, rfl⟩ | ⟨-, rfl⟩ <;> simp

/-- What FB reads as after a SET_PIXEL, from any state: the word of the operands in the pixel's four
bytes, if the command is accepted in READY and in range, and the bytes before it everywhere else. -/
theorem execSetPixel_read (h : execSetPixel idx r g b p s = .next t) (k : Nat) :
    t.fb.read k =
      if (s.fsm = .ready ∧ idx.toNat < s.cfg.n) ∧ pixelOffset idx ≤ k ∧ k < pixelOffset idx + 4 then
        (encodePixel r g b p.toNat)[k - pixelOffset idx]?
      else s.fb.read k := by
  rcases execSetPixel_next h with ⟨-, hi, rfl⟩ | ⟨hf, hi, rfl⟩ | ⟨hf, rfl⟩ | ⟨hbusy, rfl⟩
  · simp [hi.not_gt]
  · rw [State.respond_fb, State.memWrite_fb, State.handshake_fb, Memory.read_write,
      encodePixel_length]
    exact if_congr (and_iff_right ⟨hf, hi⟩).symm rfl rfl
  · simp [hf]
  · have hready : t.fsm ≠ .ready := fun hf => by simp [cmdReady_iff.mpr (.inl hf)] at hbusy
    simp [hready]

/-- Of two SET_PIXELs to one index the last wins (R93): both are carried out or neither is, and
what the second one writes covers what the first one wrote. -/
theorem execSetPixel_read_of_twice {u v : State} {r' g' b' p' : Byte}
    (ht : execSetPixel idx r g b p s = .next t) (hu : execSetPixel idx r' g' b' p' t = .next u)
    (hv : execSetPixel idx r' g' b' p' s = .next v) (k : Nat) : u.fb.read k = v.fb.read k := by
  obtain ⟨hfsm, hcfg⟩ := execSetPixel_fsm_cfg ht
  rw [execSetPixel_read hu, execSetPixel_read hv, execSetPixel_read ht, hfsm, hcfg]
  split_ifs <;> rfl

/-- Settles O20: that a repeated SET_PIXEL changes no byte is the case of equal operands, where the
second one alone leaves what the first one did. -/
theorem setPixelIdempotentLastWins : Obligations.SetPixelIdempotentLastWins := by
  intro s t u idx r g b bri r' g' b' bri' ht
  exact ⟨fun hu => execSetPixel_read_of_twice ht hu ht,
    fun _ hu hv => execSetPixel_read_of_twice ht hu hv⟩

/-! The commands out of range (R91, R95), and GET_LENGTH (R96). -/

/-- PreconditionViolation: `STK_PRECOND`, the answer (2, 0), and nothing else (60_exceptions.md
R139). -/
theorem raise_preconditionViolation (s : State) :
    s.raise .preconditionViolation =
      { s with stkPrecond := true, responses := s.responses ++ [⟨2#3, 0#32⟩] } := by
  ext1 <;>
    simp [BlockError.setsIllegal, BlockError.setsPrecond, BlockError.setsTransport,
      BlockError.code, RespCode.bits]

/-- Settles O19: out of range SET_PIXEL raises PreconditionViolation. -/
theorem setPixelOutOfRange : Obligations.SetPixelOutOfRange := by
  intro s idx r g b bri hf hi
  exact (execSetPixel_outOfRange hf hi).trans
    (congrArg Host.Outcome.next (raise_preconditionViolation s.handshake))

/-- Settles O22: out of range READ_BYTE raises PreconditionViolation. -/
theorem readByteOutOfRange : Obligations.ReadByteOutOfRange := by
  intro s off hf hi
  exact (execReadByte_outOfRange hf hi).trans
    (congrArg Host.Outcome.next (raise_preconditionViolation s.handshake))

theorem execGetLength_ready (hf : s.fsm = .ready) :
    execGetLength s = .next (s.handshake.respond .ok (BitVec.ofNat 32 s.cfg.n)) := accept_ready hf

/-- Settles O24: a legal `N` fits the 32 bits of the response's data. -/
theorem getLengthAnswersN : Obligations.GetLengthAnswersN := by
  intro s hf hlegal
  obtain ⟨-, hmax, -⟩ := (config_legal_iff s.cfg).mp hlegal
  have hfits : s.cfg.n < 2 ^ 32 := by omega
  refine ⟨BitVec.ofNat 32 s.cfg.n, ?_, execGetLength_ready hf⟩
  rw [BitVec.toNat_ofNat, Nat.mod_eq_of_lt hfits]

end

/-! The frame a filled FB holds (R100). -/

/-- The four bytes of pixel `i`'s word as FB holds them; 0 stands in for a byte with no value. -/
def State.pixelWord (s : State) (i : Nat) : List Byte :=
  (List.range 4).map fun j => (s.fb.read (4 + 4 * i + j)).getD 0x00#8

/-- The pixel words of FB in chain order, `PIX` of R100. -/
def State.pixelWords (s : State) : List (List Byte) := (List.range s.cfg.n).map s.pixelWord

section

variable {s : State} {i j k : Nat}

@[simp] theorem State.pixelWord_length (s : State) (i : Nat) : (s.pixelWord i).length = 4 := by
  simp [State.pixelWord]

@[simp] theorem State.pixelWords_length (s : State) : s.pixelWords.length = s.cfg.n := by
  simp [State.pixelWords]

theorem State.length_of_mem_pixelWords : ∀ w ∈ s.pixelWords, w.length = 4 := by
  simp [State.pixelWords]

theorem State.pixelWords_getElem (hi : i < s.cfg.n) : s.pixelWords[i]? = some (s.pixelWord i) := by
  simp [State.pixelWords, hi]

theorem State.pixelWord_getElem (hj : j < 4) (h : (s.fb.read (4 + 4 * i + j)).isSome = true) :
    (s.pixelWord i)[j]? = s.fb.read (4 + 4 * i + j) := by
  obtain ⟨b, hb⟩ := Option.isSome_iff_exists.mp h
  simp [State.pixelWord, hj, hb]

/-- A buffer that holds a frame reads, at each of its offsets, as the frame of its pixel words: the
pixel segment by the words' definition, the other segments because they are kept zero. -/
theorem FrameOk.read_eq (h : FrameOk s) (hk : k < frameLen s.cfg.n) :
    s.fb.read k = (frameOf s.pixelWords)[k]? := by
  rw [frameOf_getElem State.length_of_mem_pixelWords (by simpa using hk), State.pixelWords_length]
  split_ifs with hpixel
  · have hword : (k - 4) / 4 < s.cfg.n := by omega
    have hoffset : 4 + 4 * ((k - 4) / 4) + (k - 4) % 4 = k := by omega
    have hvalue := (h.extent k).mpr hk
    rw [State.pixelWords_getElem hword, Option.bind_some,
      State.pixelWord_getElem (Nat.mod_lt _ (by decide)) (by rwa [hoffset]), hoffset]
  · exact h.zeros k (segmentOf_isZero_iff.mpr ⟨hk, hpixel⟩)

/-- The run of a frame's length is the frame of FB's pixel words. -/
theorem FrameOk.memRead_eq (h : FrameOk s) :
    s.memRead 0 (frameLen s.cfg.n) = some (frameOf s.pixelWords) := by
  have hlen : (frameOf s.pixelWords).length = frameLen s.cfg.n := by
    rw [frameOf_length State.length_of_mem_pixelWords, State.pixelWords_length]
  rw [State.memRead, ← hlen]
  refine readRun_eq_some fun k hk => ?_
  rw [Nat.zero_add, h.read_eq (hlen ▸ hk)]

end

/-- Settles O57: under the invariant a filled FB holds a frame, and the words are FB's own. -/
theorem filledBufferIsAFrame : Obligations.FilledBufferIsAFrame := by
  intro s hinv hfilled
  exact ⟨s.pixelWords, s.pixelWords_length, State.length_of_mem_pixelWords,
    (hinv.frame hfilled).memRead_eq⟩

end Sys2Proof.Machine
end

section
/-!
PROOFS. spec/42_transfer_queue.md: the submitted length, the SUBMIT and WAIT steps answer by answer,
and the frame buffer while a FLUSH is outstanding.
-/

namespace Sys2Proof.Machine

/-! The submitted length (R106). -/

/-- The largest legal frame has 266245 bytes, so its length in bits does not wrap at 32 bits. -/
theorem frameLen_le {n : Nat} (h : n ≤ 65535) : frameLen n ≤ 266245 := by
  unfold frameLen padLen ceilDiv
  omega

theorem lenBits_toNat {n : Nat} (h : n ≤ 65535) : (lenBits n).toNat = 8 * frameLen n := by
  have hlen := frameLen_le h
  have hfits : 8 * frameLen n < 2 ^ 32 := by omega
  rw [lenBits, BitVec.toNat_ofNat, Nat.mod_eq_of_lt hfits]

/-- Settles O9: the length of a legal frame in bits fits, and the two examples compute. -/
theorem submittedLengthIsExact : Obligations.SubmittedLengthIsExact :=
  ⟨fun _ _ => lenBits_toNat, rfl, rfl⟩

section

variable {s t : State}

/-! The step of a busy BLOCK. -/

/-- While the port is busy, a step without a reset is BLOCK's own. -/
theorem step_of_busy (hb : s.cmdReady = false) (hr : s.resetNext = false) :
    step s = ownStepAt s.passIdle := by
  have haccepts : s.acceptsNow = false := by simp [State.acceptsNow, hb]
  exact step_own haccepts hr

theorem step_submit (hf : s.fsm = .submit) (hr : s.resetNext = false) :
    step s = submitStep s.passIdle := by
  have hb : s.cmdReady = false := by simp [State.cmdReady, hf]
  exact (step_of_busy hb hr).trans (ownStepAt_submit hf)

theorem step_wait (hf : s.fsm = .wait) (hr : s.resetNext = false) :
    step s = waitStep s.passIdle := by
  have hb : s.cmdReady = false := by simp [State.cmdReady, hf]
  exact (step_of_busy hb hr).trans (ownStepAt_wait hf)

/-! `submitStep`, one equation for each answer of TRANSPORT. -/

theorem submitStep_held (h : s.nextDraw.submit = none) : submitStep s = .next s.takeDraw := by
  simp only [submitStep, h]

theorem submitStep_accept {id : XferId} (h : s.nextDraw.submit = some (.accept id)) :
    submitStep s = .next
      { s.takeDraw.sent (submitRequest s) with
        pendId := id
        inFlight := s.inFlight ++ [submission s id]
        fsm := .wait } := by
  simp only [submitStep, h]

theorem submitStep_reject (h : s.nextDraw.submit = some .reject) :
    submitStep s = .next ((((s.takeDraw.sent (submitRequest s)).transmitted
      ⟨false, s.nextDraw.badWire⟩).goto .ready).raise .transportSubmit) := by
  simp only [submitStep, h]

/-! `waitStep`, one equation for each answer of TRANSPORT. -/

theorem waitStep_pending (h : s.nextDraw.poll = .pending) :
    waitStep s = .next (s.takeDraw.sent (pollRequest s)) := by
  simp only [waitStep, h]

/-- TRANSPORT's view of the frame is FB's own. -/
theorem waitStep_doneOk {bytes : List Byte} (h : s.nextDraw.poll = .doneOk)
    (hbytes : s.memRead 0 (frameLen s.cfg.n) = some bytes) :
    waitStep s = .next ((pollDone s ⟨true, wireBits bytes⟩).respond .ok 0) := by
  simp only [waitStep, h, transportFrame_eq, hbytes]

theorem waitStep_doneErr_surface (h : s.nextDraw.poll = .doneErr)
    (hp : s.cfg.statusPolicy = .surface) :
    waitStep s = .next ((pollDone s ⟨false, s.nextDraw.badWire⟩).raise .transportAwait) := by
  simp only [waitStep, h, hp]

theorem waitStep_doneErr_discard (h : s.nextDraw.poll = .doneErr)
    (hp : s.cfg.statusPolicy = .discard) :
    waitStep s = .next ((pollDone s ⟨false, s.nextDraw.badWire⟩).respond .ok 0) := by
  simp only [waitStep, h, hp]

/-! The outcomes of SUBMIT and WAIT (R111 to R115). -/

/-- TransportError, of either phase: `STK_TRANSPORT`, the answer with the phase's code, and nothing
else (60_exceptions.md R139). -/
theorem raise_transportError {e : BlockError} (he : e = .transportSubmit ∨ e = .transportAwait) :
    s.raise e =
      { s with stkTransport := true, responses := s.responses ++ [⟨e.code.bits, 0#32⟩] } := by
  rcases he with rfl | rfl <;> ext1 <;>
    simp [BlockError.setsIllegal, BlockError.setsPrecond, BlockError.setsTransport]

/-- A REJECT after HOST's idle act, before the error is raised. -/
theorem rejected_passIdle (s : State) (w : WireStream) :
    ((s.passIdle.takeDraw.sent (submitRequest s.passIdle)).transmitted w).goto .ready =
      { s with
        host := dropIdle s.host
        script := s.script.tail
        draws := s.draws + 1
        requests := s.requests ++ [.submit s.handle s.cfg.fbBase (lenBits s.cfg.n)]
        wires := s.wires ++ [w]
        fsm := .ready } := by
  ext1 <;> rfl

/-- What both DONE answers have in common, after HOST's idle act. -/
theorem pollDone_passIdle (s : State) (w : WireStream) :
    pollDone s.passIdle w =
      { s with
        host := dropIdle s.host
        script := s.script.tail
        draws := s.draws + 1
        requests := s.requests ++ [.poll s.handle s.pendId]
        wires := s.wires ++ [w]
        inFlight := s.inFlight.eraseP (fun x => decide (x.id = s.pendId))
        fsm := .ready } := by
  ext1 <;> rfl

/-- Settles O39, from the equation of each answer; a REJECT raises TransportError. -/
theorem submitStepOutcomes : Obligations.SubmitStepOutcomes := by
  intro s hf hr
  rw [step_submit hf hr]
  refine ⟨submitStep_held (s := s.passIdle), fun _ => submitStep_accept (s := s.passIdle),
    fun hreject => ⟨_, submitStep_reject hreject, ?_⟩⟩
  rw [rejected_passIdle, raise_transportError (.inl rfl)]
  rfl

/-- Settles O40: STATUS depends on STATE and the sticky bits alone, and the step changes neither. -/
theorem pendingPollChangesNothing : Obligations.PendingPollChangesNothing := by
  intro s hf hr hpoll
  rw [step_wait hf hr]
  exact ⟨_, waitStep_pending hpoll, rfl, rfl⟩

/-- Settles O41, from the equation of DONE_OK. -/
theorem doneOkAnswersTheFlush : Obligations.DoneOkAnswersTheFlush := by
  intro s bytes hf hr hpoll hbytes
  rw [step_wait hf hr]
  have hdone := waitStep_doneOk (s := s.passIdle) hpoll hbytes
  rw [pollDone_passIdle] at hdone
  exact hdone

/-- Settles O42, from the equation of each policy; SURFACE raises TransportError. -/
theorem doneErrFollowsThePolicy : Obligations.DoneErrFollowsThePolicy := by
  intro s hf hr hpoll
  rw [step_wait hf hr]
  constructor
  · intro hp
    refine ⟨_, s.nextDraw.badWire, waitStep_doneErr_surface hpoll hp, ?_⟩
    rw [pollDone_passIdle, raise_transportError (.inr rfl)]
    rfl
  · intro hp
    refine ⟨_, s.nextDraw.badWire, waitStep_doneErr_discard hpoll hp, ?_⟩
    rw [pollDone_passIdle]
    rfl

/-! The frame in flight (R109). -/

theorem submitStep_fb (h : submitStep s = .next t) : t.fb = s.fb := by
  rcases submitStep_next h with ⟨-, rfl⟩ | ⟨_, -, rfl⟩ | ⟨-, rfl⟩ <;> simp

theorem waitStep_fb (h : waitStep s = .next t) : t.fb = s.fb := by
  rcases waitStep_next h with ⟨-, rfl⟩ | ⟨-, _, -, rfl⟩ | ⟨-, -, rfl⟩ | ⟨-, -, rfl⟩ <;> simp

/-- Settles O43: the port is busy, so the step is SUBMIT's or WAIT's own, and neither writes FB. -/
theorem noStepWritesTheFrameInFlight : Obligations.NoStepWritesTheFrameInFlight := by
  intro s t hflush hr hstep k
  have hfb : t.fb = s.fb := by
    rcases hflush with hf | hf
    · rw [step_submit hf hr] at hstep
      exact submitStep_fb (s := s.passIdle) hstep
    · rw [step_wait hf hr] at hstep
      exact waitStep_fb (s := s.passIdle) hstep
  rw [hfb]

end

end Sys2Proof.Machine
end

section
/-!
PROOFS. spec/43_strip_driver.md: the answer to an accepted word, the initialisation steps answer by
answer, and BLOCK's step as a function of its inputs.
-/

namespace Sys2Proof.Machine

section

variable {s u : State} {w : Word} {rest : List HostEvent}

/-! An accepted word (R123 to R125). -/

theorem handshake_of_presented (hh : s.host = .present w :: rest) :
    s.handshake = { s with host := rest } := by
  rw [State.handshake, hh, List.tail_cons]

/-- A word accepted by a ready port is a command or an illegal word, as `decode` says. -/
theorem turn_of_presented (hh : s.host = .present w :: rest) (hr : s.cmdReady = true) :
    s.turn = turnOfWord w := by
  simp [State.turn, hh, hr]

theorem step_of_command {i : Instr} (ht : s.turn = .command i) : step s = exec i s := by
  rw [step, ht]

theorem step_of_illegal (ht : s.turn = .illegal) : step s = illegalStep s := by
  rw [step, ht]

/-- IllegalCommand: `STK_ILLEGAL`, the answer (1, 0), and nothing else (60_exceptions.md R139). -/
theorem raise_illegalCommand (s : State) :
    s.raise .illegalCommand =
      { s with stkIllegal := true, responses := s.responses ++ [⟨1#3, 0#32⟩] } := by
  ext1 <;>
    simp [BlockError.setsIllegal, BlockError.setsPrecond, BlockError.setsTransport,
      BlockError.code, RespCode.bits]

/-- Settles O30: the accepted word is illegal, and in READY that raises IllegalCommand. -/
theorem illegalWordInReady : Obligations.IllegalWordInReady := by
  intro s w rest reason hh hf hd
  have hturn : s.turn = .illegal := by
    rw [turn_of_presented hh (cmdReady_iff.mpr (.inl hf)), turnOfWord, hd]
  have hstep : illegalStep s = .next (s.handshake.raise .illegalCommand) := accept_ready hf
  rw [step_of_illegal hturn, hstep, handshake_of_presented hh, raise_illegalCommand]

/-- Settles O31: CFG_ERROR gives a command and an illegal word the same answer. -/
theorem cfgErrorAnswersEveryWord : Obligations.CfgErrorAnswersEveryWord := by
  intro s w rest hh hf
  have hturn : s.turn = turnOfWord w := turn_of_presented hh (cmdReady_iff.mpr (.inr hf))
  have hstep : step s = .next (s.handshake.respond .errConfig 0) := by
    cases hd : decode w with
    | command i =>
      rw [step_of_command (hturn.trans (by rw [turnOfWord, hd]))]
      exact exec_cfgError i hf
    | illegal reason =>
      rw [step_of_illegal (hturn.trans (by rw [turnOfWord, hd]))]
      exact accept_cfgError hf
  rw [hstep, handshake_of_presented hh]
  rfl

/-! The initialisation steps, one equation for each answer of TRANSPORT (R127 to R130). -/

theorem step_initBus (hf : s.fsm = .initBus) (hr : s.resetNext = false) :
    step s = initBusStep s.passIdle := by
  have hb : s.cmdReady = false := by simp [State.cmdReady, hf]
  exact (step_of_busy hb hr).trans (ownStepAt_initBus hf)

theorem step_initAttach (hf : s.fsm = .initAttach) (hr : s.resetNext = false) :
    step s = initAttachStep s.passIdle := by
  have hb : s.cmdReady = false := by simp [State.cmdReady, hf]
  exact (step_of_busy hb hr).trans (ownStepAt_initAttach hf)

theorem step_initFill (hf : s.fsm = .initFill) (hr : s.resetNext = false) :
    step s = initFillStep s.passIdle := by
  have hb : s.cmdReady = false := by simp [State.cmdReady, hf]
  exact (step_of_busy hb hr).trans (ownStepAt_initFill hf)

theorem initBusStep_held (h : s.nextDraw.init = none) : initBusStep s = .next s.takeDraw := by
  simp only [initBusStep, h]

theorem initBusStep_initOk (h : s.nextDraw.init = some .initOk) :
    initBusStep s = .next
      { s.takeDraw.sent (initRequest s.cfg) with busInit := true, fsm := .initAttach } := by
  simp only [initBusStep, h]

theorem initBusStep_initErr (h : s.nextDraw.init = some .initErr) :
    initBusStep s = .next (s.takeDraw.sent (initRequest s.cfg)).configError := by
  simp only [initBusStep, h]

theorem initAttachStep_held (h : s.nextDraw.attach = none) :
    initAttachStep s = .next s.takeDraw := by
  simp only [initAttachStep, h]

theorem initAttachStep_attachOk {d : Handle} (h : s.nextDraw.attach = some (.attachOk d)) :
    initAttachStep s = .next
      { s.takeDraw.sent (attachRequest s.cfg) with
        handle := d
        device := some d
        fsm := .initFill } := by
  simp only [initAttachStep, h]

theorem initAttachStep_attachErr (h : s.nextDraw.attach = some .attachErr) :
    initAttachStep s = .next (s.takeDraw.sent (attachRequest s.cfg)).configError := by
  simp only [initAttachStep, h]

/-- Settles O35, from the equation of each answer. -/
theorem initBusStepOutcomes : Obligations.InitBusStepOutcomes := by
  intro s hf hr
  rw [step_initBus hf hr]
  exact ⟨initBusStep_held (s := s.passIdle), initBusStep_initOk (s := s.passIdle),
    initBusStep_initErr (s := s.passIdle)⟩

/-- Settles O36, from the equation of each answer. -/
theorem initAttachStepOutcomes : Obligations.InitAttachStepOutcomes := by
  intro s hf hr
  rw [step_initAttach hf hr]
  exact ⟨initAttachStep_held (s := s.passIdle), fun _ => initAttachStep_attachOk (s := s.passIdle),
    initAttachStep_attachErr (s := s.passIdle)⟩

/-- Writing the default frame at offset 0 covers exactly the offsets below `L`. -/
theorem read_write_defaultFrame (m : Memory) (n k : Nat) :
    (m.write 0 (defaultFrame n)).read k =
      if k < frameLen n then (defaultFrame n)[k]? else m.read k := by
  rw [Memory.read_write, defaultFrame_length, Nat.zero_add, Nat.sub_zero]
  exact if_congr (and_iff_right k.zero_le) rfl rfl

/-- Settles O37: below `L` FB reads as the default frame, whose bytes are O8's, and above it as
before. -/
theorem initFillWritesTheDefaultFrame : Obligations.InitFillWritesTheDefaultFrame := by
  intro s hf hr
  have hread := read_write_defaultFrame s.fb s.cfg.n
  obtain ⟨-, hbytes⟩ := defaultFrameBytes s.cfg.n
  refine ⟨_, step_initFill hf hr, rfl, fun k hk => ?_,
    fun k hk => (hread k).trans (if_neg hk.not_gt)⟩
  have hinside := (hread k).trans (if_pos hk)
  obtain ⟨hzero, hpixel⟩ := hbytes k hk
  exact ⟨fun h => hinside.trans (hzero h), fun i j h => hinside.trans (hpixel i j h)⟩

end

/-! What R135 compares: BLOCK's part of the state, and the effect of a step on it. -/

/-- BLOCK's part of the state: the parameters, the registers and FB (43_strip_driver.md R135). -/
structure BlockPart where
  cfg : Config
  fsm : Fsm
  handle : Handle
  pendId : XferId
  stkIllegal : Bool
  stkPrecond : Bool
  stkTransport : Bool
  stkConfig : Bool
  fb : Memory

/-- The part a state holds of BLOCK; the rest is HOST's, TRANSPORT's and what the run has shown. -/
def State.block (s : State) : BlockPart where
  cfg := s.cfg
  fsm := s.fsm
  handle := s.handle
  pendId := s.pendId
  stkIllegal := s.stkIllegal
  stkPrecond := s.stkPrecond
  stkTransport := s.stkTransport
  stkConfig := s.stkConfig
  fb := s.fb

section

variable (s : State)

@[simp] theorem State.handshake_block : s.handshake.block = s.block := rfl
@[simp] theorem State.passIdle_block : s.passIdle.block = s.block := rfl
@[simp] theorem State.takeDraw_block : s.takeDraw.block = s.block := rfl
@[simp] theorem State.sent_block (r : Request) : (s.sent r).block = s.block := rfl
@[simp] theorem State.transmitted_block (w : WireStream) :
    (s.transmitted w).block = s.block := rfl
@[simp] theorem State.respond_block (c : RespCode) (d : BitVec 32) :
    (s.respond c d).block = s.block := rfl
@[simp] theorem State.goto_block (f : Fsm) : (s.goto f).block = { s.block with fsm := f } := rfl
@[simp] theorem State.memWrite_block (a : Nat) (bytes : List Byte) :
    (s.memWrite a bytes).block = { s.block with fb := s.block.fb.write a bytes } := rfl
@[simp] theorem State.configError_block :
    s.configError.block = { s.block with fsm := .cfgError, stkConfig := true } := rfl
@[simp] theorem State.raise_block (e : BlockError) :
    (s.raise e).block =
      { s.block with
        stkIllegal := s.block.stkIllegal || e.setsIllegal
        stkPrecond := s.block.stkPrecond || e.setsPrecond
        stkTransport := s.block.stkTransport || e.setsTransport } := rfl
@[simp] theorem pollDone_block (w : WireStream) :
    (pollDone s w).block = { s.block with fsm := .ready } := rfl
@[simp] theorem platformReset_block :
    (platformReset s).block = (State.resetOf s.block.cfg).block := rfl

end

/-- Two answers have the same effect on BLOCK: next states alike in BLOCK's part, after the same new
responses, or one fault. `before` and `before'` are the responses shown before the two steps. -/
inductive SameEffect (before before' : List Response) : Answer → Answer → Prop
  | next {t v : State} (rs : List Response) (block : t.block = v.block)
      (left : t.responses = before ++ rs) (right : v.responses = before' ++ rs) :
      SameEffect before before' (.next t) (.next v)
  | fault (f : Fault) : SameEffect before before' (.fault f) (.fault f)

section

variable {s u t v : State}

theorem SameEffect.silent (block : t.block = v.block) :
    SameEffect t.responses v.responses (.next t) (.next v) :=
  .next [] block (List.append_nil _).symm (List.append_nil _).symm

theorem SameEffect.respond (block : t.block = v.block) (c : RespCode) (d : BitVec 32) :
    SameEffect t.responses v.responses (.next (t.respond c d)) (.next (v.respond c d)) :=
  .next _ block rfl rfl

theorem SameEffect.raise (block : t.block = v.block) (e : BlockError) :
    SameEffect t.responses v.responses (.next (t.raise e)) (.next (v.raise e)) :=
  .next _ (by simp [block]) rfl rfl

/-! States alike in BLOCK's part. -/

theorem cfg_eq_of_block (h : s.block = u.block) : s.cfg = u.cfg := congrArg BlockPart.cfg h

theorem fsm_eq_of_block (h : s.block = u.block) : s.fsm = u.fsm := congrArg BlockPart.fsm h

theorem fb_eq_of_block (h : s.block = u.block) : s.fb = u.fb := congrArg BlockPart.fb h

theorem cmdReady_eq_of_block (h : s.block = u.block) : s.cmdReady = u.cmdReady := by
  simp only [State.cmdReady, fsm_eq_of_block h]

theorem SameBlockInputs.block_eq (h : SameBlockInputs s u) : s.block = u.block := by
  simp [State.block, h.cfg, h.fsm, h.handle, h.pendId, h.stkIllegal, h.stkPrecond,
    h.stkTransport, h.stkConfig, h.fb]

/-! Accepted words. -/

/-- The dispatch adds nothing that depends on more than BLOCK's part. -/
theorem accept_sameEffect {rule : State → Answer} (h : s.block = u.block)
    (hrule : SameEffect s.responses u.responses (rule s.handshake) (rule u.handshake)) :
    SameEffect s.responses u.responses (accept s rule) (accept u rule) := by
  have hfsm := fsm_eq_of_block h
  have hready := cmdReady_eq_of_block h
  cases hr : s.cmdReady with
  | false =>
    rw [accept_held hr, accept_held (hready ▸ hr)]
    exact .silent h
  | true =>
    rcases cmdReady_cases hr with hf | hf
    · rwa [accept_ready hf, accept_ready (hfsm ▸ hf)]
    · rw [accept_cfgError hf, accept_cfgError (hfsm ▸ hf)]
      exact .respond (t := s.handshake) (v := u.handshake) h .errConfig 0

theorem execSetPixel_sameEffect {idx : BitVec 16} {r g b p : Byte} (h : s.block = u.block) :
    SameEffect s.responses u.responses (execSetPixel idx r g b p s)
      (execSetPixel idx r g b p u) := by
  refine accept_sameEffect h ?_
  rw [State.handshake_cfg, State.handshake_cfg, cfg_eq_of_block h]
  split_ifs
  · exact .raise (t := s.handshake) (v := u.handshake) h _
  · exact .next _ (by simp [h]) rfl rfl

theorem execReadByte_sameEffect {off : BitVec 24} (h : s.block = u.block) :
    SameEffect s.responses u.responses (execReadByte off s) (execReadByte off u) := by
  refine accept_sameEffect h ?_
  rw [State.handshake_cfg, State.handshake_cfg, State.handshake_fb, State.handshake_fb,
    cfg_eq_of_block h, fb_eq_of_block h]
  split_ifs
  · exact .raise (t := s.handshake) (v := u.handshake) h _
  · cases u.fb.read (byteOffset off) with
    | none => exact .fault _
    | some b => exact .respond (t := s.handshake) (v := u.handshake) h .ok _

theorem execGetLength_sameEffect (h : s.block = u.block) :
    SameEffect s.responses u.responses (execGetLength s) (execGetLength u) := by
  refine accept_sameEffect h ?_
  simp only [State.handshake_cfg, cfg_eq_of_block h]
  exact .respond (t := s.handshake) (v := u.handshake) h .ok _

theorem execFlush_sameEffect (h : s.block = u.block) :
    SameEffect s.responses u.responses (execFlush s) (execFlush u) :=
  accept_sameEffect h
    (.silent (t := s.handshake.goto .submit) (v := u.handshake.goto .submit) (by simp [h]))

theorem exec_sameEffect (i : Instr) (h : s.block = u.block) :
    SameEffect s.responses u.responses (exec i s) (exec i u) := by
  cases i with
  | setPixel idx r g b p => exact execSetPixel_sameEffect h
  | flush => exact execFlush_sameEffect h
  | readByte off => exact execReadByte_sameEffect h
  | getLength => exact execGetLength_sameEffect h

theorem illegalStep_sameEffect (h : s.block = u.block) :
    SameEffect s.responses u.responses (illegalStep s) (illegalStep u) :=
  accept_sameEffect h (.raise (t := s.handshake) (v := u.handshake) h .illegalCommand)

/-! BLOCK's own steps, under the same answer of TRANSPORT. -/

theorem initBusStep_sameEffect (h : s.block = u.block)
    (hanswer : s.nextDraw.init = u.nextDraw.init) :
    SameEffect s.responses u.responses (initBusStep s) (initBusStep u) := by
  rcases hu : u.nextDraw.init with _ | _ | _
  · rw [initBusStep_held hu, initBusStep_held (hanswer.trans hu)]
    exact .silent (t := s.takeDraw) (v := u.takeDraw) h
  · rw [initBusStep_initOk hu, initBusStep_initOk (hanswer.trans hu)]
    exact .next [] (congrArg (fun b : BlockPart => { b with fsm := .initAttach }) h)
      (by simp) (by simp)
  · rw [initBusStep_initErr hu, initBusStep_initErr (hanswer.trans hu)]
    exact .next [] (by simp [h]) (by simp) (by simp)

theorem initAttachStep_sameEffect (h : s.block = u.block)
    (hanswer : s.nextDraw.attach = u.nextDraw.attach) :
    SameEffect s.responses u.responses (initAttachStep s) (initAttachStep u) := by
  rcases hu : u.nextDraw.attach with _ | d | _
  · rw [initAttachStep_held hu, initAttachStep_held (hanswer.trans hu)]
    exact .silent (t := s.takeDraw) (v := u.takeDraw) h
  · rw [initAttachStep_attachOk hu, initAttachStep_attachOk (hanswer.trans hu)]
    exact .next [] (congrArg (fun b : BlockPart => { b with handle := d, fsm := .initFill }) h)
      (by simp) (by simp)
  · rw [initAttachStep_attachErr hu, initAttachStep_attachErr (hanswer.trans hu)]
    exact .next [] (by simp [h]) (by simp) (by simp)

theorem initFillStep_sameEffect (h : s.block = u.block) :
    SameEffect s.responses u.responses (initFillStep s) (initFillStep u) :=
  .next [] (by simp [h, cfg_eq_of_block h]) (by simp) (by simp)

theorem submitStep_sameEffect (h : s.block = u.block)
    (hanswer : s.nextDraw.submit = u.nextDraw.submit) :
    SameEffect s.responses u.responses (submitStep s) (submitStep u) := by
  rcases hu : u.nextDraw.submit with _ | id | _
  · rw [submitStep_held hu, submitStep_held (hanswer.trans hu)]
    exact .silent (t := s.takeDraw) (v := u.takeDraw) h
  · rw [submitStep_accept hu, submitStep_accept (hanswer.trans hu)]
    exact .next [] (congrArg (fun b : BlockPart => { b with pendId := id, fsm := .wait }) h)
      (by simp) (by simp)
  · rw [submitStep_reject hu, submitStep_reject (hanswer.trans hu)]
    exact .next _ (by simp [h]) rfl rfl

/-- A DONE_OK for a frame with a byte that has no value stops the model (10_state.md R35). -/
theorem waitStep_unfilled (h : s.nextDraw.poll = .doneOk)
    (hbytes : s.memRead 0 (frameLen s.cfg.n) = none) : waitStep s = .fault .unfilledFrame := by
  simp only [waitStep, h, transportFrame_eq, hbytes]

theorem waitStep_sameEffect (h : s.block = u.block)
    (hanswer : s.nextDraw.poll = u.nextDraw.poll) :
    SameEffect s.responses u.responses (waitStep s) (waitStep u) := by
  have hdone : ∀ w w', (pollDone s w).block = (pollDone u w').block := by simp [h]
  cases hu : u.nextDraw.poll with
  | pending =>
    rw [waitStep_pending hu, waitStep_pending (hanswer.trans hu)]
    exact .next [] (by simp [h]) (by simp) (by simp)
  | doneOk =>
    have hframe : s.memRead 0 (frameLen s.cfg.n) = u.memRead 0 (frameLen u.cfg.n) := by
      simp only [State.memRead, cfg_eq_of_block h, fb_eq_of_block h]
    cases hbytes : u.memRead 0 (frameLen u.cfg.n) with
    | none =>
      rw [waitStep_unfilled hu hbytes, waitStep_unfilled (hanswer.trans hu) (hframe.trans hbytes)]
      exact .fault _
    | some bytes =>
      rw [waitStep_doneOk hu hbytes, waitStep_doneOk (hanswer.trans hu) (hframe.trans hbytes)]
      exact .respond (hdone _ _) .ok 0
  | doneErr =>
    have hs := hanswer.trans hu
    have hpolicy := congrArg Config.statusPolicy (cfg_eq_of_block h)
    cases hp : u.cfg.statusPolicy with
    | surface =>
      rw [waitStep_doneErr_surface hu hp, waitStep_doneErr_surface hs (hpolicy.trans hp)]
      exact .raise (hdone _ _) _
    | discard =>
      rw [waitStep_doneErr_discard hu hp, waitStep_doneErr_discard hs (hpolicy.trans hp)]
      exact .respond (hdone _ _) .ok 0

/-- BLOCK's own step, by the STATE whose step it is. -/
theorem ownStep_sameEffect (h : SameBlockInputs s u) (hr : s.resetNext = false) :
    SameEffect s.responses u.responses (ownStep s) (ownStep u) := by
  have hblock : s.passIdle.block = u.passIdle.block := h.block_eq
  simp only [ownStep, ownStepAt, State.passIdle_fsm, h.fsm]
  cases hf : u.fsm with
  | initBus => exact initBusStep_sameEffect hblock (h.initAnswer hr (h.fsm.trans hf))
  | initAttach => exact initAttachStep_sameEffect hblock (h.attachAnswer hr (h.fsm.trans hf))
  | initFill => exact initFillStep_sameEffect hblock
  | ready => exact .silent hblock
  | submit => exact submitStep_sameEffect hblock (h.submitAnswer hr (h.fsm.trans hf))
  | wait => exact waitStep_sameEffect hblock (h.pollAnswer hr (h.fsm.trans hf))
  | cfgError => exact .silent hblock

/-! The step. -/

/-- Whose turn it is depends on the platform reset and the accepted word alone. -/
theorem turn_eq (s : State) :
    s.turn = if s.resetNext then .reset else s.acceptedWord.elim .own turnOfWord := by
  unfold State.turn State.resetNext State.acceptedWord
  rcases s.host with _ | ⟨_ | _ | _, rest⟩
  case cons.present w => cases s.cmdReady <;> rfl
  all_goals rfl

theorem resetNext_of_turn_own (h : s.turn = .own) : s.resetNext = false := by
  cases hr : s.resetNext with
  | false => rfl
  | true => simp [turn_eq, hr] at h

theorem step_sameEffect (h : SameBlockInputs s u) :
    SameEffect s.responses u.responses (step s) (step u) := by
  have hturn : u.turn = s.turn := by rw [turn_eq, turn_eq, h.reset, h.word]
  rw [step, step, hturn]
  cases ht : s.turn with
  | reset => exact .silent (t := platformReset s) (v := platformReset u) (by simp [h.block_eq])
  | command i => exact exec_sameEffect i h.block_eq
  | illegal => exact illegalStep_sameEffect h.block_eq
  | own => exact ownStep_sameEffect h (resetNext_of_turn_own ht)

/-- Settles O55: each kind of step reads no more than BLOCK's part of the state, the word and the one
answer it asks for. -/
theorem blockIsAFunctionOfItsInputs : Obligations.BlockIsAFunctionOfItsInputs := by
  intro s u h
  have heffect := step_sameEffect h
  generalize step s = a, step u = b at heffect ⊢
  cases heffect with
  | next rs hblock hleft hright =>
    injection hblock with hcfg hfsm hhandle hpendId hillegal hprecond htransport hconfig hfb
    refine ⟨?_, nofun⟩
    rintro _ ⟨⟩
    exact ⟨_, rs, rfl, hcfg, hfsm, hhandle, hpendId, hillegal, hprecond, htransport, hconfig, hfb,
      hleft, hright⟩
  | fault f => exact ⟨nofun, fun _ hf => hf⟩

end

end Sys2Proof.Machine
end

section
/-!
PROOFS. spec/60_exceptions.md: the sticky bits from one step to the next.
-/

namespace Sys2Proof.Machine

/-- Each sticky bit set in `s` is set in `t` (60_exceptions.md R146). -/
def StickyKept (s t : State) : Prop :=
  (s.stkIllegal = true → t.stkIllegal = true) ∧ (s.stkPrecond = true → t.stkPrecond = true) ∧
    (s.stkTransport = true → t.stkTransport = true) ∧ (s.stkConfig = true → t.stkConfig = true)

section

variable {s t : State}

/-! What happens to the sticky bits: an operation leaves them alone (then `StickyKept.refl` applies,
because `StickyKept` reads nothing else), raises an error, or is the configuration error. -/

theorem StickyKept.refl (s : State) : StickyKept s s := ⟨id, id, id, id⟩

/-- Raising an error only ORs into the sticky bits. -/
theorem StickyKept.raise (s : State) (e : BlockError) : StickyKept s (s.raise e) :=
  ⟨Bool.or_inl, Bool.or_inl, Bool.or_inl, id⟩

theorem StickyKept.configError (s : State) : StickyKept s s.configError :=
  ⟨id, id, id, fun _ => rfl⟩

/-! Accepted words. -/

theorem exec_stickyKept {i : Instr} (h : exec i s = .next t) : StickyKept s t := by
  rcases exec_next h with
    ⟨-, rfl | ⟨_, _, _, _, _, -, -, rfl⟩ | ⟨_, rfl⟩ | ⟨-, rfl⟩⟩ | ⟨-, rfl⟩ | ⟨-, rfl⟩
  · exact .raise s.handshake .preconditionViolation
  all_goals exact .refl _

theorem illegalStep_stickyKept (h : illegalStep s = .next t) : StickyKept s t := by
  rcases illegalStep_next h with ⟨-, rfl⟩ | ⟨-, rfl⟩ | ⟨-, rfl⟩
  · exact .raise s.handshake .illegalCommand
  all_goals exact .refl _

/-! BLOCK's own steps. -/

theorem initBusStep_stickyKept (h : initBusStep s = .next t) : StickyKept s t := by
  rcases initBusStep_next h with ⟨-, rfl⟩ | ⟨-, rfl⟩ | ⟨-, rfl⟩
  · exact .refl s
  · exact .refl s
  · exact .configError (s.takeDraw.sent (initRequest s.cfg))

theorem initAttachStep_stickyKept (h : initAttachStep s = .next t) : StickyKept s t := by
  rcases initAttachStep_next h with ⟨-, rfl⟩ | ⟨_, -, rfl⟩ | ⟨-, rfl⟩
  · exact .refl s
  · exact .refl s
  · exact .configError (s.takeDraw.sent (attachRequest s.cfg))

theorem submitStep_stickyKept (h : submitStep s = .next t) : StickyKept s t := by
  rcases submitStep_next h with ⟨-, rfl⟩ | ⟨_, -, rfl⟩ | ⟨-, rfl⟩
  · exact .refl s
  · exact .refl s
  · exact .raise s .transportSubmit

theorem waitStep_stickyKept (h : waitStep s = .next t) : StickyKept s t := by
  rcases waitStep_next h with ⟨-, rfl⟩ | ⟨-, _, -, rfl⟩ | ⟨-, -, rfl⟩ | ⟨-, -, rfl⟩
  · exact .refl s
  · exact .refl s
  · exact .raise s .transportAwait
  · exact .refl s

theorem ownStepAt_stickyKept (h : ownStepAt s = .next t) : StickyKept s t := by
  rcases ownStepAt_next h with ⟨-, h⟩ | ⟨-, h⟩ | ⟨-, rfl⟩ | ⟨-, h⟩ | ⟨-, h⟩ | ⟨-, rfl⟩
  · exact initBusStep_stickyKept h
  · exact initAttachStep_stickyKept h
  · exact .refl s
  · exact submitStep_stickyKept h
  · exact waitStep_stickyKept h
  · exact .refl t

/-! The step. -/

theorem step_stickyKept (h : step s = .next t) (hr : s.resetNext = false) : StickyKept s t := by
  rcases step_next h with ⟨hreset, -⟩ | ⟨-, -, ⟨_, -, h⟩ | ⟨-, h⟩⟩ | ⟨-, -, h⟩
  · simp [hr] at hreset
  · exact exec_stickyKept h
  · exact illegalStep_stickyKept h
  · exact ownStepAt_stickyKept (s := s.passIdle) h

/-- A step with HOST's platform reset is that reset and nothing else. -/
theorem step_of_reset (h : step s = .next t) (hr : s.resetNext = true) : t = platformReset s := by
  rcases step_next h with ⟨-, ht⟩ | ⟨-, hno, -⟩ | ⟨-, hno, -⟩
  · exact ht
  · simp [hr] at hno
  · simp [hr] at hno

end

/-- Settles O50: without a reset every kind of step keeps the bits, and the reset state has none
set. -/
theorem stickyBitsStayUntilReset : Obligations.StickyBitsStayUntilReset := by
  refine fun s t hstep => ⟨step_stickyKept hstep, fun hr => ?_⟩
  rw [step_of_reset hstep hr]
  exact ⟨resetOf_stkIllegal s.cfg, resetOf_stkPrecond s.cfg, resetOf_stkTransport s.cfg,
    resetOf_stkConfig s.cfg⟩

end Sys2Proof.Machine
end


section
/-!
PROOFS. spec/70_reset_and_hazards.md: the platform reset as a step, and the clock edges after the
last pixel.
-/

namespace Sys2Proof.Machine

/-! The platform reset (R158). -/

/-- A reset that HOST asserts comes before anything else, in any state. -/
theorem turn_of_host_reset {s : State} {rest : List HostEvent} (hh : s.host = .reset :: rest) :
    s.turn = .reset := by
  rw [State.turn, hh]

theorem step_of_host_reset {s : State} {rest : List HostEvent} (hh : s.host = .reset :: rest) :
    step s = .next (platformReset s) := by
  rw [step, turn_of_host_reset hh]

theorem platformReset_host {s : State} {e : HostEvent} {rest : List HostEvent}
    (hh : s.host = e :: rest) : (platformReset s).host = rest :=
  congrArg List.tail hh

/-- STATUS reads only what the reset sets, so it is the reset state's. -/
theorem platformReset_status (s : State) : (platformReset s).status = 0x0008#16 :=
  resetOf_status s.cfg

theorem platformReset_cmdReady (s : State) : (platformReset s).cmdReady = false :=
  resetOf_cmdReady s.cfg

/-- Settles O48: the step is the reset, which keeps the configuration and the responses and takes
BLOCK's and TRANSPORT's other values from the reset state. -/
theorem platformResetFromAnyState : Obligations.PlatformResetFromAnyState := by
  intro s rest hh
  exact ⟨platformReset s, step_of_host_reset hh,
    platformReset_cfg s, resetOf_fsm s.cfg, resetOf_stkIllegal s.cfg, resetOf_stkPrecond s.cfg,
    resetOf_stkTransport s.cfg, resetOf_stkConfig s.cfg, platformReset_status s,
    platformReset_cmdReady s, rfl, rfl, rfl, platformReset_host hh, rfl⟩

/-! The end segment (R170). -/

/-- The end segment has a byte for every 16 pixels begun, and one more. -/
theorem add_sixteen_le_sixteen_mul_padLen (n : Nat) : n + 16 ≤ 16 * padLen n := by
  have hceil : n ≤ 16 * ceilDiv n 16 := (ceilDiv_le_iff (by decide)).mp le_rfl
  rw [padLen]
  omega

/-- Settles O10: the bound on the end segment, with the reset segment's 32 edges added. -/
theorem paddingGivesEnoughClocks : Obligations.PaddingGivesEnoughClocks := by
  intro n
  have hpad := add_sixteen_le_sixteen_mul_padLen n
  constructor <;> omega

end Sys2Proof.Machine
end

section
/-!
PROOFS. spec/30_encoding.md: the command words there and back, and the assembler.
-/

namespace Sys2Proof

variable {w w' : Word} {n m lo lo' : Nat}

theorem getLsbD_field (v : BitVec n) (lo k : Nat) :
    (field v lo).getLsbD k = (decide (k < 64) && decide (lo ≤ k) && v.getLsbD (k - lo)) := by
  simp only [field, BitVec.getLsbD_shiftLeft, BitVec.getLsbD_setWidth, ← decide_not, not_lt]
  by_cases hk : k < 64
  · have hsub : k - lo < 64 := by omega
    simp [hk, hsub]
  · simp [hk]

/-- Read at its own place a field is its value. -/
theorem extract_field_same (v : BitVec n) (hfits : lo + n ≤ 64) :
    (field v lo).extractLsb' lo n = v := by
  ext k hk
  have hword : lo + k < 64 := by omega
  rw [BitVec.getElem_extractLsb', getLsbD_field, Nat.add_sub_cancel_left]
  simp [hword, hk]

/-- Elsewhere a field is 0. -/
theorem extract_field_disjoint (v : BitVec n) (h : lo' + m ≤ lo ∨ lo + n ≤ lo') :
    (field v lo).extractLsb' lo' m = 0#m := by
  ext k hk
  simp only [BitVec.getElem_extractLsb', getLsbD_field, BitVec.getElem_zero]
  rcases h with h | h
  · have hlo : ¬ lo ≤ lo' + k := by omega
    simp [hlo]
  · simp only [BitVec.getLsbD_of_ge v (lo' + k - lo) (by omega), Bool.and_false]

theorem encode_setPixel_pattern (idx : BitVec 16) (r g b p : Byte) :
    encode (.setPixel idx r g b p) &&& 0xFF000000000000FF#64 = 0x1000000000000000#64 :=
  Laws.EncodingRow.setPixel idx r g b p

theorem encode_readByte_pattern (off : BitVec 24) :
    encode (.readByte off) &&& 0xFFFFFFFFFF000000#64 = 0x3000000000000000#64 :=
  Laws.EncodingRow.readByte off

/-- The fields of SET_PIXEL's format (30_encoding.md R62), read off its word. -/
theorem setPixel_fields (idx : BitVec 16) (r g b p : Byte) :
    (encode (.setPixel idx r g b p)).extractLsb' 40 16 = idx ∧
    (encode (.setPixel idx r g b p)).extractLsb' 32 8 = r ∧
    (encode (.setPixel idx r g b p)).extractLsb' 24 8 = g ∧
    (encode (.setPixel idx r g b p)).extractLsb' 16 8 = b ∧
    (encode (.setPixel idx r g b p)).extractLsb' 8 8 = p := by
  simp [encode, BitVec.extractLsb'_or, extract_field_same, extract_field_disjoint]

theorem readByte_field (off : BitVec 24) :
    (encode (.readByte off)).extractLsb' 0 24 = off := by
  simp [encode, BitVec.extractLsb'_or, extract_field_same, extract_field_disjoint]

/-- Settles O12: the word of a command matches its row's pattern, and each field reads as it was
written. -/
theorem decodeInvertsEncode : Obligations.DecodeInvertsEncode := by
  intro i _
  cases i with
  | setPixel idx r g b p =>
    obtain ⟨hidx, hr, hg, hb, hp⟩ := setPixel_fields idx r g b p
    rw [decode_of_setPixel_pattern (encode_setPixel_pattern idx r g b p), hidx, hr, hg, hb, hp]
  | flush => exact decode_flush
  | readByte off =>
    rw [decode_of_readByte_pattern (encode_readByte_pattern off), readByte_field]
  | getLength => exact decode_getLength

/-- A word that decodes to a command matches that command's pattern. -/
theorem decode_eq_command {i : Instr} (h : decode w = .command i) :
    (w &&& 0xFF000000000000FF#64 = 0x1000000000000000#64 ∧
      i = .setPixel (w.extractLsb' 40 16) (w.extractLsb' 32 8) (w.extractLsb' 24 8)
        (w.extractLsb' 16 8) (w.extractLsb' 8 8)) ∨
    (w = 0x2000000000000000#64 ∧ i = .flush) ∨
    (w &&& 0xFFFFFFFFFF000000#64 = 0x3000000000000000#64 ∧ i = .readByte (w.extractLsb' 0 24)) ∨
    (w = 0x4000000000000000#64 ∧ i = .getLength) := by
  unfold decode at h
  split_ifs at h with hsetPixel hflush hreadByte hgetLength <;> cases h
  · exact .inl ⟨hsetPixel, rfl⟩
  · exact .inr (.inl ⟨hflush, rfl⟩)
  · exact .inr (.inr (.inl ⟨hreadByte, rfl⟩))
  · exact .inr (.inr (.inr ⟨hgetLength, rfl⟩))

/-- Two words that agree below a bit and in the field from there on agree below the field's end. -/
theorem agree_through_field (hbelow : w.setWidth lo = w'.setWidth lo)
    (hfield : w.extractLsb' lo n = w'.extractLsb' lo n) :
    w.setWidth (lo + n) = w'.setWidth (lo + n) := by
  ext k hk
  rcases lt_or_ge k lo with hlow | hlow
  · simpa [hlow] using congrArg (·.getLsbD k) hbelow
  · have hoffset : k - lo < n := by omega
    simpa [hoffset, hlow] using congrArg (·.getLsbD (k - lo)) hfield

/-- Two words of one pattern agree where its mask is all ones. -/
theorem agree_of_pattern {mask value : Word} (h : w &&& mask = value) (h' : w' &&& mask = value)
    (hmask : mask.extractLsb' lo n = BitVec.allOnes n) :
    w.extractLsb' lo n = w'.extractLsb' lo n :=
  (extract_of_pattern h hmask).trans (extract_of_pattern h' hmask).symm

/-- A word of SET_PIXEL's pattern is put together of its own fields. -/
theorem encode_of_setPixel_pattern (h : w &&& 0xFF000000000000FF#64 = 0x1000000000000000#64) :
    encode (.setPixel (w.extractLsb' 40 16) (w.extractLsb' 32 8) (w.extractLsb' 24 8)
      (w.extractLsb' 16 8) (w.extractLsb' 8 8)) = w := by
  have hrow := encode_setPixel_pattern (w.extractLsb' 40 16) (w.extractLsb' 32 8)
    (w.extractLsb' 24 8) (w.extractLsb' 16 8) (w.extractLsb' 8 8)
  obtain ⟨hidx, hr, hg, hb, hp⟩ := setPixel_fields (w.extractLsb' 40 16) (w.extractLsb' 32 8)
    (w.extractLsb' 24 8) (w.extractLsb' 16 8) (w.extractLsb' 8 8)
  have h8 := agree_through_field (lo := 0) (Subsingleton.elim _ _)
    (agree_of_pattern (n := 8) hrow h rfl)
  have h40 := agree_through_field (agree_through_field (agree_through_field (agree_through_field
    h8 hp) hb) hg) hr
  have h64 := agree_through_field (agree_through_field h40 hidx)
    (agree_of_pattern (n := 8) hrow h rfl)
  simpa using h64

theorem encode_of_readByte_pattern (h : w &&& 0xFFFFFFFFFF000000#64 = 0x3000000000000000#64) :
    encode (.readByte (w.extractLsb' 0 24)) = w := by
  have hrow := encode_readByte_pattern (w.extractLsb' 0 24)
  have h24 := agree_through_field (lo := 0) (Subsingleton.elim _ _)
    (readByte_field (w.extractLsb' 0 24))
  have h64 := agree_through_field h24 (agree_of_pattern (n := 40) hrow h rfl)
  simpa using h64

/-- Settles O13, by the pattern the word matches. -/
theorem encodeInvertsDecode : Obligations.EncodeInvertsDecode := by
  intro w i hd
  rcases decode_eq_command hd with ⟨h, rfl⟩ | ⟨rfl, rfl⟩ | ⟨h, rfl⟩ | ⟨rfl, rfl⟩
  · exact encode_of_setPixel_pattern h
  · exact Laws.EncodingRow.flush
  · exact encode_of_readByte_pattern h
  · exact Laws.EncodingRow.getLength

/-- Settles O16: the two SET_PIXEL and the two READ_BYTE words match their patterns, and the other
two are FLUSH's and GET_LENGTH's. -/
theorem sampleWordsDecode : Obligations.SampleWordsDecode :=
  ⟨decode_of_setPixel_pattern rfl, decode_of_setPixel_pattern rfl, decode_flush,
    decode_of_readByte_pattern rfl, decode_of_readByte_pattern rfl, decode_getLength⟩

/-! The assembler (30_encoding.md R75). -/

theorem assemble_of_not_fits {l : AsmLine} (h : ¬ l.fits = true) : assemble l = none := if_neg h

/-- The assembler refuses nothing but what does not fit. -/
theorem fits_iff_assembles (l : AsmLine) : l.fits = true ↔ ∃ w, assemble l = some w := by
  refine ⟨fun h => ?_, fun ⟨w, hw⟩ => ?_⟩
  · cases l <;> exact ⟨_, if_pos h⟩
  · by_contra h
    simp [assemble_of_not_fits h] at hw

theorem setPixel_fits_iff {idx red green blue bri : Nat} :
    (AsmLine.setPixel idx red green blue bri).fits = true ↔
      idx < 2 ^ 16 ∧ red < 256 ∧ green < 256 ∧ blue < 256 ∧ bri < 2 ^ 8 := by
  simp only [AsmLine.fits, Bool.and_eq_true, decide_eq_true_eq, and_assoc]

theorem readByte_fits_iff {off : Nat} : (AsmLine.readByte off).fits = true ↔ off < 2 ^ 24 :=
  decide_eq_true_iff

theorem word_fits_iff {v : Nat} : (AsmLine.word v).fits = true ↔ v < 2 ^ 64 := decide_eq_true_iff

/-- A SET_PIXEL line that fits has the word of its command, and no number loses a bit. -/
theorem assemble_setPixel {idx red green blue bri : Nat} (hidx : idx < 2 ^ 16) (hred : red < 256)
    (hgreen : green < 256) (hblue : blue < 256) (hbri : bri < 2 ^ 8) :
    ∃ (w : Word) (i : BitVec 16) (r g b p : Byte),
      assemble (.setPixel idx red green blue bri) = some w ∧
      decode w = .command (.setPixel i r g b p) ∧
      i.toNat = idx ∧ r.toNat = red ∧ g.toNat = green ∧ b.toNat = blue ∧ p.toNat = bri :=
  ⟨_, _, _, _, _, _, if_pos (setPixel_fits_iff.mpr ⟨hidx, hred, hgreen, hblue, hbri⟩),
    decodeInvertsEncode _ rfl, Nat.mod_eq_of_lt hidx, Nat.mod_eq_of_lt hred,
    Nat.mod_eq_of_lt hgreen, Nat.mod_eq_of_lt hblue, Nat.mod_eq_of_lt hbri⟩

theorem assemble_readByte {off : Nat} (h : off < 2 ^ 24) :
    ∃ (w : Word) (o : BitVec 24), assemble (.readByte off) = some w ∧
      decode w = .command (.readByte o) ∧ o.toNat = off :=
  ⟨_, _, if_pos (readByte_fits_iff.mpr h), decodeInvertsEncode _ rfl, Nat.mod_eq_of_lt h⟩

/-- Settles O17: a line that fits has the word of its command, which decodes back by O12, and
one that does not is refused. -/
theorem assembledLinesDecodeToTheirCommand : Obligations.AssembledLinesDecodeToTheirCommand := by
  refine ⟨fun idx red green blue bri => ⟨assemble_setPixel, fun h => assemble_of_not_fits ?_⟩,
    fun off => ⟨assemble_readByte, fun h => assemble_of_not_fits ?_⟩,
    ⟨_, rfl, decode_flush⟩, ⟨_, rfl, decode_getLength⟩,
    fun v => ⟨fun h => ⟨_, if_pos (word_fits_iff.mpr h), Nat.mod_eq_of_lt h⟩,
      fun h => assemble_of_not_fits ?_⟩, fits_iff_assembles⟩
  · rw [setPixel_fits_iff]
    omega
  · rw [readByte_fits_iff]
    omega
  · rw [word_fits_iff]
    omega

end Sys2Proof
end

section
/-!
PROOFS. spec/41_frame_buffer.md, spec/42_transfer_queue.md R110: what each command does in READY,
and its frame in every state.
-/

namespace Sys2Proof.Machine

section

variable {s t : State}

/-- Settles O21, by READ_BYTE's equation in range. -/
theorem readByteAnswersTheByte : Obligations.ReadByteAnswersTheByte :=
  fun _ _ _ hf hoff hbyte => execReadByte_inRange hf hoff hbyte

/-- Settles O23, by READ_BYTE's equation for a byte with no value. -/
theorem readByteOfNoValueFaults : Obligations.ReadByteOfNoValueFaults :=
  fun _ _ hf hoff hbyte => execReadByte_unfilled hf hoff hbyte

theorem execFlush_ready (hf : s.fsm = .ready) :
    execFlush s = .next (s.handshake.goto .submit) := accept_ready hf

/-- Settles O25, by FLUSH's equation in READY. -/
theorem flushEntersSubmit : Obligations.FlushEntersSubmit := fun _ hf => execFlush_ready hf

/-- Every byte of a pixel word lies in the frame. -/
theorem pixelByte_lt_frameLen {n i j : Nat} (hi : i < n) (hj : j < 4) :
    4 + 4 * i + j < frameLen n := by
  have hlen := reset_end_le_frameLen n
  omega

/-- Settles O26: SET_PIXEL stays in READY and keeps N, so READ_BYTE is in range, and the byte it
reads is the one just stored. -/
theorem readByteSeesSetPixel : Obligations.ReadByteSeesSetPixel := by
  intro s t idx r g b bri off j v hf hi hset hj hoff hv
  obtain ⟨hfsm, hcfg⟩ := execSetPixel_fsm_cfg hset
  refine readByteAnswersTheByte t off v (hfsm.trans hf) ?_ ?_
  · rw [hoff, hcfg]
    exact pixelByte_lt_frameLen hi hj
  · have hbyte : pixelOffset idx ≤ off.toNat ∧ off.toNat < pixelOffset idx + 4 := by
      rw [hoff, pixelOffset]
      omega
    have hindex : off.toNat - pixelOffset idx = j := by
      rw [hoff, pixelOffset, Nat.add_sub_cancel_left]
    rw [execSetPixel_read hset, if_pos ⟨⟨hf, hi⟩, hbyte⟩, hindex, hv]

/-! The frames. -/

/-- A SET_PIXEL changes no register but `STK_PRECOND`, and takes at most HOST's first act. -/
theorem execSetPixel_frame {idx : BitVec 16} {r g b p : Byte}
    (h : execSetPixel idx r g b p s = .next t) :
    t = { s with
      host := t.host
      stkPrecond := t.stkPrecond
      fb := t.fb
      responses := t.responses } ∧
    (s.stkPrecond = true → t.stkPrecond = true) ∧
    (t.host = s.host ∨ t.host = s.host.tail) ∧
    ∃ rs, t.responses = s.responses ++ rs := by
  rcases execSetPixel_next h with ⟨-, -, rfl⟩ | ⟨-, -, rfl⟩ | ⟨-, rfl⟩ | ⟨-, rfl⟩
  · rw [raise_preconditionViolation]
    exact ⟨rfl, fun _ => rfl, .inr rfl, _, rfl⟩
  · exact ⟨rfl, id, .inr rfl, _, rfl⟩
  · exact ⟨rfl, id, .inr rfl, _, rfl⟩
  · exact ⟨rfl, id, .inl rfl, [], (List.append_nil _).symm⟩

/-- Settles O27: the registers by the outcomes of SET_PIXEL, the bytes by what FB reads as after
it. -/
theorem setPixelFrame : Obligations.SetPixelFrame := by
  intro s t idx r g b bri h
  obtain ⟨hframe, hsticky, hhost, hresponses⟩ := execSetPixel_frame h
  refine ⟨hframe, hsticky, hhost, hresponses, fun k hk => ?_, fun hnot k => ?_⟩
  · rw [execSetPixel_read h, if_neg fun hin => hk hin.2]
  · rw [execSetPixel_read h, if_neg fun hin => hnot hin.1]

theorem execFlush_frame (h : execFlush s = .next t) :
    t = { s with host := t.host, fsm := t.fsm, responses := t.responses } ∧
    (t.fsm = s.fsm ∨ (s.fsm = .ready ∧ t.fsm = .submit)) := by
  rcases execFlush_next h with ⟨hf, rfl⟩ | ⟨-, rfl⟩ | ⟨-, rfl⟩
  · exact ⟨rfl, .inr ⟨hf, rfl⟩⟩
  · exact ⟨rfl, .inl rfl⟩
  · exact ⟨rfl, .inl rfl⟩

theorem execReadByte_frame {off : BitVec 24} (h : execReadByte off s = .next t) :
    t = { s with host := t.host, stkPrecond := t.stkPrecond, responses := t.responses } ∧
    (s.stkPrecond = true → t.stkPrecond = true) := by
  rcases execReadByte_next h with ⟨-, -, rfl⟩ | ⟨-, -, _, -, rfl⟩ | ⟨-, rfl⟩ | ⟨-, rfl⟩
  · rw [raise_preconditionViolation]
    exact ⟨rfl, fun _ => rfl⟩
  all_goals exact ⟨rfl, id⟩

theorem execGetLength_frame (h : execGetLength s = .next t) :
    t = { s with host := t.host, responses := t.responses } := by
  rcases execGetLength_next h with ⟨-, rfl⟩ | ⟨-, rfl⟩ | ⟨-, rfl⟩ <;> rfl

end

/-- Settles O28: each frame leaves FB out, so every byte reads as before. -/
theorem nonStoringCommandsFrame : Obligations.NonStoringCommandsFrame := by
  refine fun s t => ⟨fun h => ?_, fun off h => ?_, fun h => ?_⟩
  · obtain ⟨hframe, hfsm⟩ := execFlush_frame h
    exact ⟨hframe, hfsm, fun k => congrArg (Memory.read · k) (congrArg State.fb hframe :)⟩
  · obtain ⟨hframe, hsticky⟩ := execReadByte_frame h
    exact ⟨hframe, hsticky, fun k => congrArg (Memory.read · k) (congrArg State.fb hframe :)⟩
  · have hframe := execGetLength_frame h
    exact ⟨hframe, fun k => congrArg (Memory.read · k) (congrArg State.fb hframe :)⟩

end Sys2Proof.Machine
end

section
/-!
PROOFS. spec/43_strip_driver.md: everything a step can be, one constructor for each outcome, and
what holds of every step by cases on it.
-/

namespace Sys2Proof.Machine

/-- What BLOCK makes of an accepted word (R123 to R126). -/
inductive AcceptedStep (s : State) : State → Prop
  /-- In READY: an error, answered at once. -/
  | raised (hf : s.fsm = .ready) (e : BlockError) : AcceptedStep s (s.handshake.raise e)
  /-- In READY: a SET_PIXEL in range. -/
  | stored (hf : s.fsm = .ready) (idx : BitVec 16) (r g b : Byte) (p : Int)
      (hi : idx.toNat < s.cfg.n) :
      AcceptedStep s ((s.handshake.memWrite (pixelOffset idx) (encodePixel r g b p)).respond .ok 0)
  /-- In READY: a command that only answers. -/
  | answered (hf : s.fsm = .ready) (data : BitVec 32) :
      AcceptedStep s (s.handshake.respond .ok data)
  /-- In READY: FLUSH. -/
  | flushed (hf : s.fsm = .ready) : AcceptedStep s (s.handshake.goto .submit)
  /-- In CFG_ERROR: any word. -/
  | refused (hf : s.fsm = .cfgError) : AcceptedStep s (s.handshake.respond .errConfig 0)

/-- What BLOCK's own step does (R127 to R130, R133, 42_transfer_queue.md R111 to R115). -/
inductive OwnStep (s : State) : State → Prop
  /-- TRANSPORT has no answer yet. -/
  | held (hf : s.fsm = .initBus ∨ s.fsm = .initAttach ∨ s.fsm = .submit) : OwnStep s s.takeDraw
  | busInitialised (hf : s.fsm = .initBus) :
      OwnStep s { s.takeDraw.sent (initRequest s.cfg) with busInit := true, fsm := .initAttach }
  | attached (hf : s.fsm = .initAttach) (d : Handle) :
      OwnStep s { s.takeDraw.sent (attachRequest s.cfg) with
        handle := d, device := some d, fsm := .initFill }
  /-- INIT_ERR or ATTACH_ERR. -/
  | misconfigured (hf : s.fsm = .initBus ∨ s.fsm = .initAttach) (r : Request) :
      OwnStep s (s.takeDraw.sent r).configError
  | filled (hf : s.fsm = .initFill) :
      OwnStep s ((s.memWrite 0 (defaultFrame s.cfg.n)).goto .ready)
  | submitted (hf : s.fsm = .submit) (id : XferId) :
      OwnStep s { s.takeDraw.sent (submitRequest s) with
        pendId := id, inFlight := s.inFlight ++ [submission s id], fsm := .wait }
  | rejected (hf : s.fsm = .submit) (w : WireStream) :
      OwnStep s ((((s.takeDraw.sent (submitRequest s)).transmitted w).goto .ready).raise
        .transportSubmit)
  | pending (hf : s.fsm = .wait) : OwnStep s (s.takeDraw.sent (pollRequest s))
  /-- DONE_OK, or DONE_ERR under DISCARD. -/
  | done (hf : s.fsm = .wait) (w : WireStream) : OwnStep s ((pollDone s w).respond .ok 0)
  /-- DONE_ERR under SURFACE. -/
  | failed (hf : s.fsm = .wait) (w : WireStream) : OwnStep s ((pollDone s w).raise .transportAwait)
  /-- READY and CFG_ERROR have no step of their own. -/
  | idle (hr : s.cmdReady = true) : OwnStep s s

section

variable {s t : State}

theorem exec_acceptedStep {i : Instr} (h : exec i s = .next t) (hr : s.cmdReady = true) :
    AcceptedStep s t := by
  rcases exec_next h with
    ⟨hf, rfl | ⟨idx, r, g, b, p, -, hi, rfl⟩ | ⟨data, rfl⟩ | ⟨-, rfl⟩⟩ | ⟨hf, rfl⟩ | ⟨hb, -⟩
  · exact .raised hf _
  · exact .stored hf idx r g b _ hi
  · exact .answered hf data
  · exact .flushed hf
  · exact .refused hf
  · simp [hr] at hb

theorem illegalStep_acceptedStep (h : illegalStep s = .next t) (hr : s.cmdReady = true) :
    AcceptedStep s t := by
  rcases illegalStep_next h with ⟨hf, rfl⟩ | ⟨hf, rfl⟩ | ⟨hb, -⟩
  · exact .raised hf _
  · exact .refused hf
  · simp [hr] at hb

theorem ownStepAt_ownStep (h : ownStepAt s = .next t) : OwnStep s t := by
  rcases ownStepAt_next h with ⟨hf, h⟩ | ⟨hf, h⟩ | ⟨hf, rfl⟩ | ⟨hf, h⟩ | ⟨hf, h⟩ | ⟨hr, rfl⟩
  · rcases initBusStep_next h with ⟨-, rfl⟩ | ⟨-, rfl⟩ | ⟨-, rfl⟩
    · exact .held (.inl hf)
    · exact .busInitialised hf
    · exact .misconfigured (.inl hf) _
  · rcases initAttachStep_next h with ⟨-, rfl⟩ | ⟨d, -, rfl⟩ | ⟨-, rfl⟩
    · exact .held (.inr (.inl hf))
    · exact .attached hf d
    · exact .misconfigured (.inr hf) _
  · exact .filled hf
  · rcases submitStep_next h with ⟨-, rfl⟩ | ⟨id, -, rfl⟩ | ⟨-, rfl⟩
    · exact .held (.inr (.inr hf))
    · exact .submitted hf id
    · exact .rejected hf _
  · rcases waitStep_next h with ⟨-, rfl⟩ | ⟨-, _, -, rfl⟩ | ⟨-, -, rfl⟩ | ⟨-, -, rfl⟩
    · exact .pending hf
    · exact .done hf _
    · exact .failed hf _
    · exact .done hf _
  · exact .idle hr

/-- Every step is the platform reset, an accepted word, or BLOCK's own step with HOST's idle act. -/
theorem step_cases (h : step s = .next t) :
    (s.resetNext = true ∧ t = platformReset s) ∨
    (s.acceptsNow = true ∧ s.resetNext = false ∧ AcceptedStep s t) ∨
    (s.acceptsNow = false ∧ s.resetNext = false ∧ OwnStep s.passIdle t) := by
  rcases step_next h with hreset | ⟨ha, hr, ⟨_, -, h⟩ | ⟨-, h⟩⟩ | ⟨ha, hr, h⟩
  · exact .inl hreset
  · exact .inr (.inl ⟨ha, hr, exec_acceptedStep h (cmdReady_of_accepts ha)⟩)
  · exact .inr (.inl ⟨ha, hr, illegalStep_acceptedStep h (cmdReady_of_accepts ha)⟩)
  · exact .inr (.inr ⟨ha, hr, ownStepAt_ownStep h⟩)

/-- Settles O29: the turn is the command's, and such a step is `exec` of it. -/
theorem stepRunsTheDecodedCommand : Obligations.StepRunsTheDecodedCommand :=
  fun _ _ _ _ hh hr hd _ => step_of_command (turn_command hh hr hd)

/-! The transitions of STATE (R133). -/

theorem AcceptedStep.allowed (h : AcceptedStep s t) : Fsm.allowed s.fsm t.fsm = true := by
  cases h with
  | raised hf | stored hf | answered hf | flushed hf | refused hf => simp [hf, Fsm.allowed]

theorem OwnStep.allowed (h : OwnStep s t) : Fsm.allowed s.fsm t.fsm = true := by
  cases h with
  | held hf => rcases hf with hf | hf | hf <;> simp [hf, Fsm.allowed]
  | misconfigured hf => rcases hf with hf | hf <;> simp [hf, Fsm.allowed]
  | idle hr => rcases cmdReady_cases hr with hf | hf <;> simp [hf, Fsm.allowed]
  | busInitialised hf | attached hf | filled hf | submitted hf | rejected hf | pending hf | done hf
  | failed hf => simp [hf, Fsm.allowed]

/-- Settles O53: each outcome of a step is a row of the table, and no name of STATE has the code
7. -/
theorem noOtherTransition : Obligations.NoOtherTransition := by
  refine fun s t hstep => ⟨fun hr => ?_, fun hr => ?_, fun f => by cases f <;> decide⟩
  · rcases step_cases hstep with ⟨hreset, -⟩ | ⟨-, -, h⟩ | ⟨-, -, h⟩
    · simp [hr] at hreset
    · exact h.allowed
    · exact OwnStep.allowed (s := s.passIdle) h
  · rw [step_of_reset hstep hr]
    rfl

/-! One response for each accepted word (30_encoding.md R71). -/

/-- The responses shown and outstanding in `t` are those of `s` and `accepted` more; at most one of
them was shown on the way from `s` to `t`, and none taken back. -/
def Accounts (s t : State) (accepted : Nat) : Prop :=
  t.responses.length + t.outstanding = s.responses.length + s.outstanding + accepted ∧
    ∃ rs, rs.length ≤ 1 ∧ t.responses = s.responses ++ rs

theorem Accounts.silent {n : Nat} (hresponses : t.responses = s.responses)
    (houtstanding : t.outstanding = s.outstanding + n) : Accounts s t n := by
  refine ⟨?_, [], Nat.zero_le 1, by rw [hresponses, List.append_nil]⟩
  rw [hresponses, houtstanding, Nat.add_assoc]

theorem Accounts.answer {n : Nat} {r : Response} (hresponses : t.responses = s.responses ++ [r])
    (houtstanding : t.outstanding + 1 = s.outstanding + n) : Accounts s t n := by
  refine ⟨?_, [r], le_rfl, hresponses⟩
  rw [hresponses, List.length_append, List.length_singleton]
  omega

/-- A response is outstanding exactly in SUBMIT and WAIT (10_state.md R33). -/
theorem outstanding_eq (s : State) :
    s.outstanding = if s.fsm = .submit ∨ s.fsm = .wait then 1 else 0 := by
  unfold State.outstanding State.flushing
  cases s.fsm <;> rfl

/-- FLUSH leaves its response outstanding; every other word is answered in the step that accepts
it. -/
theorem AcceptedStep.accounts (h : AcceptedStep s t) : Accounts s t 1 := by
  cases h with
  | flushed hf => exact .silent rfl (by simp [outstanding_eq, hf])
  | raised hf | stored hf | answered hf | refused hf =>
    exact .answer rfl (by simp [outstanding_eq, hf])

/-- BLOCK's own steps answer a FLUSH where STATE goes back to READY, and nothing else. -/
theorem OwnStep.accounts (h : OwnStep s t) : Accounts s t 0 := by
  cases h with
  | held | idle => exact .silent rfl rfl
  | misconfigured hf => exact .silent rfl (by rcases hf with hf | hf <;> simp [outstanding_eq, hf])
  | busInitialised hf | attached hf | filled hf | submitted hf | pending hf =>
    exact .silent rfl (by simp [outstanding_eq, hf])
  | rejected hf | done hf | failed hf => exact .answer rfl (by simp [outstanding_eq, hf])

theorem step_accounts (h : step s = .next t) (hr : s.resetNext = false) :
    Accounts s t (if s.acceptsNow then 1 else 0) := by
  rcases step_cases h with ⟨hreset, -⟩ | ⟨ha, -, h⟩ | ⟨ha, -, h⟩
  · simp [hr] at hreset
  · rw [ha]
    exact h.accounts
  · rw [ha]
    exact OwnStep.accounts (s := s.passIdle) h

/-- Settles O34, by the count over each outcome of a step. -/
theorem oneResponsePerAcceptedWord : Obligations.OneResponsePerAcceptedWord :=
  fun _ _ => step_accounts

/-! Quiescent states (R136) and CFG_ERROR (R132). -/

theorem presents_iff : s.presents = true ↔ ∃ w rest, s.host = .present w :: rest := by
  unfold State.presents
  split <;> simp_all

theorem quiescent_iff :
    s.quiescent = true ↔
      (s.fsm = .ready ∨ s.fsm = .cfgError) ∧ ∀ w rest, s.host ≠ .present w :: rest := by
  rw [State.quiescent, Bool.and_eq_true, cmdReady_iff, Bool.not_eq_true', ← Bool.not_eq_true,
    presents_iff]
  simp only [not_exists, ne_eq]

/-- Where the port is ready but takes no word, only HOST's idle act passes. -/
theorem step_of_ready_idle (hr : s.cmdReady = true) (ha : s.acceptsNow = false)
    (hreset : s.resetNext = false) : step s = .next s.passIdle := by
  rw [step_own ha hreset, ownStepAt_idle (s := s.passIdle) hr]

/-- Settles O33: BLOCK has no step of its own in READY and CFG_ERROR, and those states are neither
SUBMIT nor WAIT. -/
theorem quiescentStateStays : Obligations.QuiescentStateStays := by
  refine fun s => ⟨quiescent_iff, fun hq => ?_⟩
  obtain ⟨hfsm, -⟩ := quiescent_iff.mp hq
  obtain ⟨hr, hpresents⟩ := Bool.and_eq_true_iff.mp hq
  have ha : s.acceptsNow = false := by simp_all [State.acceptsNow]
  have hwait : s.fsm ≠ .wait := by rcases hfsm with hf | hf <;> simp [hf]
  have hstep := step_of_ready_idle hr ha
  refine ⟨?_, fun hinv => hinv.noTransfer hwait, hstep, fun hh => ?_⟩
  · rcases hfsm with hf | hf <;> simp [outstanding_eq, hf]
  · rw [hstep (by simp [State.resetNext, hh]), passIdle_eq (by simp [dropIdle, hh])]

/-- In CFG_ERROR an accepted word, whatever it is, is answered ERR_CONFIG (R124). -/
theorem step_of_cfgError_accepting (hf : s.fsm = .cfgError) (ha : s.acceptsNow = true) :
    step s = .next (s.handshake.respond .errConfig 0) := by
  obtain ⟨w, rest, hh⟩ := presents_iff.mp (Bool.and_eq_true_iff.mp ha).1
  rw [cfgErrorAnswersEveryWord s w rest hh hf, handshake_of_presented hh]
  rfl

/-- Settles O54: an accepted word is answered and else only an idle act of HOST passes; neither
sends a request, and neither depends on FB or writes it. -/
theorem cfgErrorIsTerminal : Obligations.CfgErrorIsTerminal := by
  intro s m hf hr
  cases ha : s.acceptsNow with
  | true =>
    exact ⟨_, step_of_cfgError_accepting hf ha, hf, rfl, rfl,
      step_of_cfgError_accepting (s := { s with fb := m }) hf ha⟩
  | false =>
    have hready : s.cmdReady = true := cmdReady_iff.mpr (.inr hf)
    exact ⟨_, step_of_ready_idle hready ha hr, hf, rfl, rfl,
      step_of_ready_idle (s := { s with fb := m }) hready ha hr⟩

end

/-! The boot (70_reset_and_hazards.md R163). -/

theorem status_of_ready {s : State} (hf : s.fsm = .ready) (hno : s.noError = true) :
    s.status = 0x0003#16 := by
  simp only [State.noError, Bool.and_eq_true, Bool.not_eq_true'] at hno
  simp [State.status, State.busy, State.inflightBit, hf, hno, Fsm.code]

/-- Settles O38: the three steps by the equations of INIT_OK, ATTACH_OK and INIT_FILL. -/
theorem bootReachesReady : Obligations.BootReachesReady := by
  intro c h d1 d2 later _ hinit hattach
  refine ⟨_, _, _,
    (step_initBus rfl rfl).trans (initBusStep_initOk hinit), rfl,
    (step_initAttach rfl rfl).trans (initAttachStep_attachOk hattach), rfl,
    step_initFill rfl rfl, rfl, rfl, ?_, rfl, fun k hk => ?_⟩
  · exact status_of_ready rfl rfl
  · exact (read_write_defaultFrame [] c.n k).trans (if_pos hk)

end Sys2Proof.Machine
end

section
/-!
PROOFS. The invariant of Safety.lean: it holds at reset, every step keeps it, and where it holds no
step stops (spec/10_state.md R32, R35, spec/41_frame_buffer.md R97 to R99).
-/

namespace Sys2Proof.Machine

section

variable {s t : State}

/-! What the invariant speaks of. -/

/-- The state with a fixed value in every field the invariant says nothing about. -/
def State.invPart (s : State) : State :=
  { s with
    stkIllegal := false
    stkPrecond := false
    stkTransport := false
    host := []
    script := []
    draws := 0
    responses := []
    requests := []
    wires := [] }

/-- That FB holds a frame depends on FB and N alone. -/
theorem FrameOk.of_eq (h : FrameOk s) (hfb : t.fb = s.fb) (hcfg : t.cfg = s.cfg) : FrameOk t := by
  constructor
  · rw [hfb, hcfg]
    exact h.extent
  · rw [hfb, hcfg]
    exact h.zeros
  · rw [hfb, hcfg]
    exact h.headers

theorem inv_invPart_iff : s.invPart.Inv ↔ s.Inv :=
  ⟨fun h => ⟨h.legal, h.fbWf, fun hs => (h.frame hs).of_eq rfl rfl, h.unfilled, h.waiting,
      h.noTransfer, h.device, h.busDown, h.busUp, h.config⟩,
    fun h => ⟨h.legal, h.fbWf, fun hs => (h.frame hs).of_eq rfl rfl, h.unfilled, h.waiting,
      h.noTransfer, h.device, h.busDown, h.busUp, h.config⟩⟩

/-- What a step does to the other fields keeps the invariant. -/
theorem State.Inv.of_invPart_eq (h : s.Inv) (heq : t.invPart = s.invPart) : t.Inv :=
  inv_invPart_iff.mp (heq ▸ inv_invPart_iff.mpr h)

theorem State.Inv.stkConfig_eq_false (h : s.Inv) (hf : s.fsm ≠ .cfgError) :
    s.stkConfig = false :=
  Bool.eq_false_iff.mpr fun hset => hf (h.config.mpr hset)

/-! The reset state. -/

theorem resetOf_inv {c : Config} (h : c.legal = true) : (State.resetOf c).Inv where
  legal := h
  fbWf := rfl
  frame := nofun
  unfilled _ := rfl
  waiting := nofun
  noTransfer _ := rfl
  device := nofun
  busDown _ := rfl
  busUp := nofun
  config := ⟨nofun, nofun⟩

theorem default_legal : Config.default.legal = true :=
  (config_legal_iff _).mpr ⟨by decide, by decide, rfl⟩

/-- Settles O58: a block is built with a legal configuration, and the default one is legal. -/
theorem invariantAtReset : Obligations.InvariantAtReset := by
  refine ⟨resetOf_inv default_legal, fun c s hbuild => ?_⟩
  by_cases hlegal : c.legal = true
  · rw [build_of_legal hlegal] at hbuild
    cases hbuild
    exact resetOf_inv hlegal
  · simp [build_of_not_legal hlegal] at hbuild

/-- Settles O56, by whether STATE is WAIT. -/
theorem atMostOneTransferInFlight : Obligations.AtMostOneTransferInFlight := by
  intro s h
  by_cases hf : s.fsm = .wait
  · simp [h.waiting hf, hf]
  · simp [h.noTransfer hf, hf]

/-! The frame buffer under the two writes. -/

/-- A write gives its own bytes a value and takes no other byte's. -/
theorem Memory.isSome_read_write (m : Memory) (a : Nat) (bytes : List Byte) (k : Nat) :
    ((m.write a bytes).read k).isSome = true ↔
      (a ≤ k ∧ k < a + bytes.length) ∨ (m.read k).isSome = true := by
  rw [Memory.read_write]
  split_ifs with hin
  · have hindex : k - a < bytes.length := by omega
    simp [hindex, hin]
  · simp [hin]

/-- SET_PIXEL in range keeps the frame: it writes four bytes of the pixel segment, a header byte
first (41_frame_buffer.md R97). -/
theorem FrameOk.memWrite_pixel (h : FrameOk s) {idx : BitVec 16} (hi : idx.toNat < s.cfg.n)
    (r g b : Byte) (p : Int) :
    FrameOk (s.memWrite (pixelOffset idx) (encodePixel r g b p)) where
  extent k := by
    have hlen := reset_end_le_frameLen s.cfg.n
    rw [State.memWrite_fb, Memory.isSome_read_write, h.extent, State.memWrite_cfg,
      encodePixel_length, pixelOffset]
    omega
  zeros k hk := by
    obtain ⟨-, hpixel⟩ := segmentOf_isZero_iff.mp hk
    rw [State.memWrite_fb, Memory.read_write_outside]
    · exact h.zeros k hk
    · rw [State.memWrite_cfg] at hpixel
      rw [encodePixel_length, pixelOffset]
      omega
  headers i hin := by
    by_cases hidx : i = idx.toNat
    · subst hidx
      exact ⟨bcode p, bcode_le p, Memory.read_write_inside s.fb (pixelOffset idx) _ 0 (by simp)⟩
    · rw [State.memWrite_fb, Memory.read_write_outside]
      · exact h.headers i hin
      · rw [encodePixel_length, pixelOffset]
        omega

/-- Writing the default frame into an FB without values makes it hold a frame: the default frame's
own, by its bytes. -/
theorem frameOk_of_filled (h : s.fb = []) : FrameOk (s.memWrite 0 (defaultFrame s.cfg.n)) := by
  have hread := read_write_defaultFrame s.fb s.cfg.n
  obtain ⟨-, hbytes⟩ := defaultFrameBytes s.cfg.n
  refine ⟨fun k => ?_, fun k hk => ?_, fun i hi => ⟨1, by decide, ?_⟩⟩
  · rw [State.memWrite_fb, Memory.isSome_read_write, defaultFrame_length, h]
    simp [Memory.read]
  · obtain ⟨hlt, -⟩ := segmentOf_isZero_iff.mp hk
    exact (hread k).trans ((if_pos hlt).trans ((hbytes k hlt).1 hk))
  · have hlt : 4 + 4 * i < frameLen s.cfg.n := pixelByte_lt_frameLen (j := 0) hi (by decide)
    exact (hread _).trans ((if_pos hlt).trans
      ((hbytes _ hlt).2 i 0 (segmentOf_pixelByte (j := 0) hi (by decide))))

/-! The transitions of STATE. -/

/-- From INIT_BUS to INIT_ATTACH. -/
theorem State.Inv.busInitialised (h : s.Inv) (hf : s.fsm = .initBus) :
    State.Inv { s with busInit := true, fsm := .initAttach } where
  legal := h.legal
  fbWf := h.fbWf
  frame := nofun
  unfilled _ := h.unfilled (by simp [State.filled, hf])
  waiting := nofun
  noTransfer _ := h.noTransfer (by simp [hf])
  device := nofun
  busDown := nofun
  busUp _ := rfl
  config := by simp [h.stkConfig_eq_false, hf]

/-- From INIT_ATTACH to INIT_FILL. -/
theorem State.Inv.attached (h : s.Inv) (hf : s.fsm = .initAttach) (d : Handle) :
    State.Inv { s with handle := d, device := some d, fsm := .initFill } where
  legal := h.legal
  fbWf := h.fbWf
  frame := nofun
  unfilled _ := h.unfilled (by simp [State.filled, hf])
  waiting := nofun
  noTransfer _ := h.noTransfer (by simp [hf])
  device _ := rfl
  busDown := nofun
  busUp _ := h.busUp (by simp [State.busUp, hf])
  config := by simp [h.stkConfig_eq_false, hf]

/-- From INIT_BUS and INIT_ATTACH to CFG_ERROR. -/
theorem State.Inv.configError (h : s.Inv) (hf : s.fsm = .initBus ∨ s.fsm = .initAttach) :
    s.configError.Inv where
  legal := h.legal
  fbWf := h.fbWf
  frame := nofun
  unfilled _ := h.unfilled (by rcases hf with hf | hf <;> simp [State.filled, hf])
  waiting := nofun
  noTransfer _ := h.noTransfer (by rcases hf with hf | hf <;> simp [hf])
  device := nofun
  busDown := nofun
  busUp := nofun
  config := ⟨fun _ => rfl, fun _ => rfl⟩

/-- From INIT_FILL to READY. -/
theorem State.Inv.filled (h : s.Inv) (hf : s.fsm = .initFill) :
    State.Inv ((s.memWrite 0 (defaultFrame s.cfg.n)).goto .ready) where
  legal := h.legal
  fbWf := Memory.wf_write _ _ _ h.fbWf
  frame _ := (frameOk_of_filled (h.unfilled (by simp [State.filled, hf]))).of_eq rfl rfl
  unfilled := nofun
  waiting := nofun
  noTransfer _ := h.noTransfer (by simp [hf])
  device _ := h.device (by simp [State.handleValid, hf])
  busDown := nofun
  busUp _ := h.busUp (by simp [State.busUp, hf])
  config := by simp [h.stkConfig_eq_false, hf]

/-- SET_PIXEL in READY. -/
theorem State.Inv.stored (h : s.Inv) (hf : s.fsm = .ready) {idx : BitVec 16}
    (hi : idx.toNat < s.cfg.n) (r g b : Byte) (p : Int) :
    State.Inv (s.memWrite (pixelOffset idx) (encodePixel r g b p)) where
  legal := h.legal
  fbWf := Memory.wf_write _ _ _ h.fbWf
  frame hs := (h.frame hs).memWrite_pixel hi r g b p
  unfilled := by simp [State.filled, hf]
  waiting := h.waiting
  noTransfer := h.noTransfer
  device := h.device
  busDown := h.busDown
  busUp := h.busUp
  config := h.config

/-- Between READY and SUBMIT. -/
theorem State.Inv.goto (h : s.Inv) (hf : s.fsm = .ready ∨ s.fsm = .submit) {f : Fsm}
    (hto : f = .ready ∨ f = .submit) : (s.goto f).Inv := by
  have hframe := h.frame (by rcases hf with hf | hf <;> simp [State.filled, hf])
  have hidle := h.noTransfer (by rcases hf with hf | hf <;> simp [hf])
  have hdevice := h.device (by rcases hf with hf | hf <;> simp [State.handleValid, hf])
  have hbus := h.busUp (by rcases hf with hf | hf <;> simp [State.busUp, hf])
  have hconfig := h.stkConfig_eq_false (by rcases hf with hf | hf <;> simp [hf])
  rcases hto with rfl | rfl
  all_goals exact
    { legal := h.legal
      fbWf := h.fbWf
      frame := fun _ => hframe.of_eq rfl rfl
      unfilled := nofun
      waiting := nofun
      noTransfer := fun _ => hidle
      device := fun _ => hdevice
      busDown := nofun
      busUp := fun _ => hbus
      config := by simp [hconfig] }

/-- From SUBMIT to WAIT. -/
theorem State.Inv.submitted (h : s.Inv) (hf : s.fsm = .submit) (id : XferId) :
    State.Inv { s with
      pendId := id, inFlight := s.inFlight ++ [submission s id], fsm := .wait } where
  legal := h.legal
  fbWf := h.fbWf
  frame _ := (h.frame (by simp [State.filled, hf])).of_eq rfl rfl
  unfilled := nofun
  waiting _ := by simp [h.noTransfer, hf, submission]
  noTransfer hne := absurd rfl hne
  device _ := h.device (by simp [State.handleValid, hf])
  busDown := nofun
  busUp _ := h.busUp (by simp [State.busUp, hf])
  config := by simp [h.stkConfig_eq_false, hf]

/-- From WAIT to READY: the one transfer in flight is PEND_ID's, and it leaves the queue. -/
theorem State.Inv.pollDone (h : s.Inv) (hf : s.fsm = .wait) (w : WireStream) :
    (pollDone s w).Inv where
  legal := h.legal
  fbWf := h.fbWf
  frame _ := (h.frame (by simp [State.filled, hf])).of_eq rfl rfl
  unfilled := nofun
  waiting := nofun
  noTransfer _ := by simp [h.waiting hf, submission]
  device _ := h.device (by simp [State.handleValid, hf])
  busDown := nofun
  busUp _ := h.busUp (by simp [State.busUp, hf])
  config := by simp [h.stkConfig_eq_false, hf]

/-! Every step. -/

theorem AcceptedStep.inv (h : AcceptedStep s t) (hs : s.Inv) : t.Inv := by
  cases h with
  | raised | answered | refused => exact hs.of_invPart_eq rfl
  | stored hf idx r g b p hi => exact (hs.stored hf hi r g b p).of_invPart_eq rfl
  | flushed hf => exact (hs.goto (.inl hf) (.inr rfl)).of_invPart_eq rfl

theorem OwnStep.inv (h : OwnStep s t) (hs : s.Inv) : t.Inv := by
  cases h with
  | held | pending | idle => exact hs.of_invPart_eq rfl
  | busInitialised hf => exact (hs.busInitialised hf).of_invPart_eq rfl
  | attached hf d => exact (hs.attached hf d).of_invPart_eq rfl
  | misconfigured hf => exact (hs.configError hf).of_invPart_eq rfl
  | filled hf => exact hs.filled hf
  | submitted hf id => exact (hs.submitted hf id).of_invPart_eq rfl
  | rejected hf => exact (hs.goto (.inr hf) (.inl rfl)).of_invPart_eq rfl
  | done hf w | failed hf w => exact (hs.pollDone hf w).of_invPart_eq rfl

/-- Settles O59: a reset gives the reset state of the same configuration, and every other step is a
transition that keeps the invariant or leaves what it speaks of alone. -/
theorem everyStepKeepsTheInvariant : Obligations.EveryStepKeepsTheInvariant := by
  intro s t hs hstep
  rcases step_cases hstep with ⟨-, rfl⟩ | ⟨-, -, h⟩ | ⟨-, -, h⟩
  · exact (resetOf_inv hs.legal).of_invPart_eq rfl
  · exact h.inv hs
  · exact h.inv (hs.of_invPart_eq rfl)

/-! No step stops (10_state.md R35). -/

theorem State.Inv.exec_answers (h : s.Inv) (i : Instr) : ∃ t, exec i s = .next t := by
  cases hr : s.cmdReady with
  | false => exact ⟨s, exec_held i hr⟩
  | true =>
    rcases cmdReady_cases hr with hf | hf
    · cases i with
      | setPixel idx r g b p =>
        rcases lt_or_ge idx.toNat s.cfg.n with hi | hi
        · exact ⟨_, execSetPixel_inRange hf hi⟩
        · exact ⟨_, execSetPixel_outOfRange hf hi⟩
      | flush => exact ⟨_, execFlush_ready hf⟩
      | readByte off =>
        rcases lt_or_ge off.toNat (frameLen s.cfg.n) with hi | hi
        · have hframe := h.frame (by simp [State.filled, hf])
          obtain ⟨b, hb⟩ := Option.isSome_iff_exists.mp ((hframe.extent off.toNat).mpr hi)
          exact ⟨_, execReadByte_inRange hf hi hb⟩
        · exact ⟨_, execReadByte_outOfRange hf hi⟩
      | getLength => exact ⟨_, execGetLength_ready hf⟩
    · exact ⟨_, exec_cfgError i hf⟩

theorem illegalStep_answers (s : State) : ∃ t, illegalStep s = .next t := by
  cases hr : s.cmdReady with
  | false => exact ⟨s, accept_held hr⟩
  | true =>
    rcases cmdReady_cases hr with hf | hf
    · exact ⟨_, accept_ready hf⟩
    · exact ⟨_, accept_cfgError hf⟩

theorem initBusStep_answers (s : State) : ∃ t, initBusStep s = .next t := by
  rcases h : s.nextDraw.init with _ | _ | _
  · exact ⟨_, initBusStep_held h⟩
  · exact ⟨_, initBusStep_initOk h⟩
  · exact ⟨_, initBusStep_initErr h⟩

theorem initAttachStep_answers (s : State) : ∃ t, initAttachStep s = .next t := by
  rcases h : s.nextDraw.attach with _ | _ | _
  · exact ⟨_, initAttachStep_held h⟩
  · exact ⟨_, initAttachStep_attachOk h⟩
  · exact ⟨_, initAttachStep_attachErr h⟩

theorem submitStep_answers (s : State) : ∃ t, submitStep s = .next t := by
  rcases h : s.nextDraw.submit with _ | _ | _
  · exact ⟨_, submitStep_held h⟩
  · exact ⟨_, submitStep_accept h⟩
  · exact ⟨_, submitStep_reject h⟩

/-- A poll answered DONE_OK needs the frame, and FB holds one. -/
theorem FrameOk.waitStep_answers (hframe : FrameOk s) : ∃ t, waitStep s = .next t := by
  cases h : s.nextDraw.poll with
  | pending => exact ⟨_, waitStep_pending h⟩
  | doneOk => exact ⟨_, waitStep_doneOk h hframe.memRead_eq⟩
  | doneErr =>
    cases hp : s.cfg.statusPolicy with
    | surface => exact ⟨_, waitStep_doneErr_surface h hp⟩
    | discard => exact ⟨_, waitStep_doneErr_discard h hp⟩

theorem State.Inv.ownStepAt_answers (h : s.Inv) : ∃ t, ownStepAt s = .next t := by
  cases hf : s.fsm with
  | initBus => exact ownStepAt_initBus hf ▸ initBusStep_answers s
  | initAttach => exact ownStepAt_initAttach hf ▸ initAttachStep_answers s
  | initFill => exact ⟨_, ownStepAt_initFill hf⟩
  | submit => exact ownStepAt_submit hf ▸ submitStep_answers s
  | wait =>
    exact ownStepAt_wait hf ▸ (h.frame (by simp [State.filled, hf])).waitStep_answers
  | ready => exact ⟨s, ownStepAt_idle (cmdReady_iff.mpr (.inl hf))⟩
  | cfgError => exact ⟨s, ownStepAt_idle (cmdReady_iff.mpr (.inr hf))⟩

/-- Settles O60, by whose turn it is: the two steps that could stop read FB in a state where it
holds a frame. -/
theorem noReachableStepStops : Obligations.NoReachableStepStops := by
  intro s h
  rw [step]
  cases s.turn with
  | reset => exact ⟨_, rfl⟩
  | command i => exact h.exec_answers i
  | illegal => exact illegalStep_answers s
  | own => exact (h.of_invPart_eq (t := s.passIdle) rfl).ownStepAt_answers

end

end Sys2Proof.Machine
end

section
/-!
PROOFS. spec/10_state.md R24: no step depends on the sticky bits. Each function that answers a step
answers the same from the state with the bits cleared, up to the sticky bits.
-/

namespace Sys2Proof.Machine

/-- The answer with the sticky bits of its next state cleared. -/
def clearAnswer : Answer → Answer
  | .next t => .next t.clearSticky
  | .fault r => .fault r
  | .refused r => .refused r

theorem eq_next_of_clearAnswer {a : Answer} {u : State} (h : clearAnswer a = .next u) :
    ∃ t, a = .next t ∧ t.clearSticky = u := by
  cases a <;> cases h
  exact ⟨_, rfl, rfl⟩

theorem eq_fault_of_clearAnswer {a : Answer} {r : Fault} (h : clearAnswer a = .fault r) :
    a = .fault r := by
  cases a <;> cases h
  rfl

/-- The answer depends on the sticky bits in none but the sticky bits of its next state. -/
def IgnoresSticky (f : State → Answer) : Prop :=
  ∀ s, clearAnswer (f s.clearSticky) = clearAnswer (f s)

section

variable (s : State)

@[simp] theorem State.clearSticky_cfg : s.clearSticky.cfg = s.cfg := rfl
@[simp] theorem State.clearSticky_fsm : s.clearSticky.fsm = s.fsm := rfl
@[simp] theorem State.clearSticky_fb : s.clearSticky.fb = s.fb := rfl
@[simp] theorem State.clearSticky_turn : s.clearSticky.turn = s.turn := rfl
@[simp] theorem State.clearSticky_nextDraw : s.clearSticky.nextDraw = s.nextDraw := rfl
@[simp] theorem State.clearSticky_transportFrame :
    s.clearSticky.transportFrame = s.transportFrame := rfl
@[simp] theorem State.clearSticky_handshake :
    s.clearSticky.handshake = s.handshake.clearSticky := rfl
@[simp] theorem State.clearSticky_passIdle :
    s.clearSticky.passIdle = s.passIdle.clearSticky := rfl

end

/-! Accepted words. -/

theorem accept_ignoresSticky {rule : State → Answer} (h : IgnoresSticky rule) :
    IgnoresSticky (accept · rule) := by
  intro s
  simp only [accept, State.clearSticky_fsm, State.clearSticky_handshake]
  cases s.fsm with
  | ready => exact h s.handshake
  | initBus | initAttach | initFill | submit | wait | cfgError => rfl

theorem execSetPixel_ignoresSticky (idx : BitVec 16) (r g b p : Byte) :
    IgnoresSticky (execSetPixel idx r g b p) := by
  refine accept_ignoresSticky fun s => ?_
  rw [State.clearSticky_cfg]
  split_ifs <;> rfl

theorem execReadByte_ignoresSticky (off : BitVec 24) : IgnoresSticky (execReadByte off) := by
  refine accept_ignoresSticky fun s => ?_
  rw [State.clearSticky_cfg, State.clearSticky_fb]
  split_ifs
  · rfl
  · cases s.fb.read (byteOffset off) <;> rfl

theorem execFlush_ignoresSticky : IgnoresSticky execFlush := by
  refine accept_ignoresSticky fun s => ?_
  rfl

theorem execGetLength_ignoresSticky : IgnoresSticky execGetLength := by
  refine accept_ignoresSticky fun s => ?_
  rfl

theorem exec_ignoresSticky (i : Instr) : IgnoresSticky (exec i) := by
  cases i with
  | setPixel idx r g b p => exact execSetPixel_ignoresSticky idx r g b p
  | flush => exact execFlush_ignoresSticky
  | readByte off => exact execReadByte_ignoresSticky off
  | getLength => exact execGetLength_ignoresSticky

theorem illegalStep_ignoresSticky : IgnoresSticky illegalStep :=
  accept_ignoresSticky fun _ => rfl

/-! BLOCK's own steps. -/

theorem initBusStep_ignoresSticky : IgnoresSticky initBusStep := by
  intro s
  unfold initBusStep
  rw [State.clearSticky_nextDraw]
  rcases s.nextDraw.init with _ | _ | _ <;> rfl

theorem initAttachStep_ignoresSticky : IgnoresSticky initAttachStep := by
  intro s
  unfold initAttachStep
  rw [State.clearSticky_nextDraw]
  rcases s.nextDraw.attach with _ | _ | _ <;> rfl

theorem submitStep_ignoresSticky : IgnoresSticky submitStep := by
  intro s
  unfold submitStep
  rw [State.clearSticky_nextDraw]
  rcases s.nextDraw.submit with _ | _ | _ <;> rfl

theorem waitStep_ignoresSticky : IgnoresSticky waitStep := by
  intro s
  unfold waitStep
  rw [State.clearSticky_nextDraw, State.clearSticky_transportFrame, State.clearSticky_cfg]
  cases s.nextDraw.poll with
  | pending => rfl
  | doneOk => cases s.transportFrame <;> rfl
  | doneErr => cases s.cfg.statusPolicy <;> rfl

theorem ownStepAt_ignoresSticky : IgnoresSticky ownStepAt := by
  intro s
  unfold ownStepAt
  rw [State.clearSticky_fsm]
  cases s.fsm with
  | initBus => exact initBusStep_ignoresSticky s
  | initAttach => exact initAttachStep_ignoresSticky s
  | submit => exact submitStep_ignoresSticky s
  | wait => exact waitStep_ignoresSticky s
  | initFill | ready | cfgError => rfl

/-! The step. -/

theorem step_ignoresSticky : IgnoresSticky step := by
  intro s
  unfold step
  rw [State.clearSticky_turn]
  cases s.turn with
  | reset => rfl
  | command i => exact exec_ignoresSticky i s
  | illegal => exact illegalStep_ignoresSticky s
  | own => exact ownStepAt_ignoresSticky s.passIdle

/-- Settles O51: the two steps answer alike up to the sticky bits, so they go on together and stop
together. -/
theorem nothingDependsOnStickyBits : Obligations.NothingDependsOnStickyBits := by
  intro s
  have hsame := step_ignoresSticky s
  refine ⟨fun t ht => ?_, fun f hf => ?_⟩
  · rw [ht] at hsame
    exact eq_next_of_clearAnswer hsame
  · rw [hf] at hsame
    exact eq_fault_of_clearAnswer hsame

end Sys2Proof.Machine
end

section
/-!
PROOFS. spec/42_transfer_queue.md R116, R118 and spec/20_memory.md R51: the wire stream, and a FLUSH
from its acceptance to its answer.
-/

namespace Sys2Proof.Machine

/-! The wire stream (R118). -/

theorem byteBits_getElem (b : Byte) {j : Nat} (hj : j < 8) :
    (byteBits b)[j]? = some (b.getLsbD (7 - j)) := by
  interval_cases j <;> rfl

theorem wireBits_getElem {bytes : List Byte} {k j : Nat} {b : Byte} (hj : j < 8)
    (hb : bytes[k]? = some b) : (wireBits bytes)[8 * k + j]? = some (b.getLsbD (7 - j)) := by
  induction bytes generalizing k with
  | nil => simp at hb
  | cons first rest ih =>
    rw [wireBits, List.getElem?_append, byteBits_length]
    cases k with
    | zero =>
      cases hb
      rw [Nat.mul_zero, Nat.zero_add, if_pos hj, byteBits_getElem b hj]
    | succ k =>
      have hpast : ¬ 8 * (k + 1) + j < 8 := by omega
      have hindex : 8 * (k + 1) + j - 8 = 8 * k + j := by omega
      rw [if_neg hpast, hindex, ih hb]

/-- Settles O44, by induction on the bytes. -/
theorem wireStreamBitOrder : Obligations.WireStreamBitOrder :=
  fun bytes => ⟨wireBits_length bytes, fun _ _ hj _ hb => wireBits_getElem hj hb⟩

/-! Runs and the responses they show. -/

section

variable {s t : State} {m k : Nat}

/-- The first step of a run that answers a next state answers one. -/
theorem run_succ_next (h : Host.Core.run Sys2Proof.core (k + 1) s = (.next t : Answer)) :
    ∃ u, step s = .next u ∧ Host.Core.run Sys2Proof.core k u = (.next t : Answer) := by
  rw [run_unfold] at h
  cases hs : step s with
  | next u => exact ⟨u, rfl, by rwa [hs] at h⟩
  | fault r => rw [hs] at h; cases h
  | refused r => rw [hs] at h; cases h

/-- A run that answers a next state passes one at each of its steps. -/
theorem run_split (h : Host.Core.run Sys2Proof.core (m + k) s = (.next t : Answer)) :
    ∃ u : State, Host.Core.run Sys2Proof.core m s = (.next u : Answer) ∧
      Host.Core.run Sys2Proof.core k u = (.next t : Answer) := by
  induction m generalizing s with
  | zero => exact ⟨s, run_zero s, by rwa [Nat.zero_add] at h⟩
  | succ m ih =>
    rw [Nat.add_right_comm] at h
    obtain ⟨v, hstep, hrest⟩ := run_succ_next h
    obtain ⟨u, hu, ht⟩ := ih hrest
    exact ⟨u, (run_succ m hstep).trans hu, ht⟩

/-- No step takes a response back, the platform reset included. -/
theorem step_responses (h : step s = .next t) : s.responses <+: t.responses := by
  cases hr : s.resetNext with
  | true =>
    rw [step_of_reset h hr]
    exact List.prefix_rfl
  | false =>
    obtain ⟨-, rs, -, hrs⟩ := step_accounts h hr
    exact ⟨rs, hrs.symm⟩

theorem run_responses (h : Host.Core.run Sys2Proof.core k s = (.next t : Answer)) :
    s.responses <+: t.responses := by
  induction k generalizing s with
  | zero =>
    cases h
    exact List.prefix_rfl
  | succ k ih =>
    obtain ⟨u, hstep, hrest⟩ := run_succ_next h
    exact (step_responses hstep).trans (ih hrest)

/-- A run that ends with the responses it began with shows none on its way. -/
theorem run_responses_between
    (h : Host.Core.run Sys2Proof.core (m + k) s = (.next t : Answer))
    (hsame : t.responses = s.responses) :
    ∃ u : State, Host.Core.run Sys2Proof.core m s = (.next u : Answer) ∧
      u.responses = s.responses := by
  obtain ⟨u, hu, ht⟩ := run_split h
  have hback : u.responses <+: s.responses := hsame ▸ run_responses ht
  exact ⟨u, hu, hback.eq_of_length_le (run_responses hu).length_le⟩

end

/-! Steps without an answer (R105, R113). -/

/-- In each of the next `k` steps HOST asserts no reset, and TRANSPORT's draw is scripted and leaves
BLOCK without the answer it waits for. -/
structure Unanswered (silent : Draw → Prop) (k : Nat) (s : State) : Prop where
  scripted : k ≤ s.script.length
  draws : ∀ d ∈ s.script.take k, silent d
  noReset : ∀ j < k, (dropIdle^[j] s.host).head? ≠ some .reset

section

variable {s t : State} {k : Nat} {silent : Draw → Prop}

theorem resetNext_iff : s.resetNext = true ↔ s.host.head? = some .reset := by
  unfold State.resetNext
  rcases s.host with _ | ⟨_ | _ | _, _⟩ <;> simp

theorem Unanswered.resetNext (h : Unanswered silent (k + 1) s) : s.resetNext = false :=
  Bool.eq_false_iff.mpr fun hr => h.noReset 0 k.succ_pos (resetNext_iff.mp hr)

theorem Unanswered.script_eq (h : Unanswered silent (k + 1) s) :
    s.script = s.nextDraw :: s.script.tail := by
  obtain ⟨d, later, hscript⟩ := List.exists_cons_of_length_pos (k.succ_pos.trans_le h.scripted)
  rw [nextDraw_script hscript, hscript, List.tail_cons]

theorem Unanswered.nextDraw (h : Unanswered silent (k + 1) s) : silent s.nextDraw := by
  apply h.draws
  rw [h.script_eq, List.take_succ_cons, nextDraw_script h.script_eq]
  exact List.mem_cons_self

/-- One of the steps later. -/
theorem Unanswered.tail (h : Unanswered silent (k + 1) s) (hhost : t.host = dropIdle s.host)
    (hscript : t.script = s.script.tail) : Unanswered silent k t where
  scripted := by
    have := h.scripted
    rw [hscript, List.length_tail]
    omega
  draws d hd := by
    apply h.draws
    rw [h.script_eq, List.take_succ_cons, ← hscript]
    exact List.mem_cons_of_mem _ hd
  noReset j hj := by
    rw [hhost]
    exact h.noReset (j + 1) (Nat.succ_lt_succ hj)

/-- The state `k` steps on in which no answer came, and no poll was sent. -/
def State.heldFor (k : Nat) (s : State) : State :=
  { s with
    host := dropIdle^[k] s.host
    script := s.script.drop k
    draws := s.draws + k }

theorem State.heldFor_succ (k : Nat) (s : State) :
    s.heldFor (k + 1) = s.passIdle.takeDraw.heldFor k := by
  ext1 <;> simp [State.heldFor, Nat.add_assoc, Nat.add_comm 1]

/-- The state `k` polls on, each of them unanswered. -/
def State.polledFor (k : Nat) (s : State) : State :=
  { s.heldFor k with requests := s.requests ++ List.replicate k (pollRequest s) }

theorem State.polledFor_requests (k : Nat) (s : State) :
    (s.polledFor k).requests = s.requests ++ List.replicate k (pollRequest s) := rfl

theorem State.polledFor_zero (s : State) : s.polledFor 0 = s := by
  ext1 <;> simp [State.polledFor, State.heldFor]

theorem State.polledFor_succ (k : Nat) (s : State) :
    s.polledFor (k + 1) = (s.passIdle.takeDraw.sent (pollRequest s)).polledFor k := by
  ext1 <;> simp [State.polledFor, State.heldFor, Nat.add_assoc, Nat.add_comm 1,
    List.replicate_succ, pollRequest]

theorem run_submit_unanswered (hf : s.fsm = .submit)
    (h : Unanswered (fun d => d.submit = none) k s) :
    Host.Core.run Sys2Proof.core k s = (.next (s.heldFor k) : Answer) := by
  induction k generalizing s with
  | zero => rfl
  | succ k ih =>
    have hstep : step s = .next s.passIdle.takeDraw :=
      (step_submit hf h.resetNext).trans (submitStep_held (s := s.passIdle) h.nextDraw)
    rw [run_succ k hstep, ih (s := s.passIdle.takeDraw) hf (h.tail rfl rfl), State.heldFor_succ]

theorem run_wait_unanswered (hf : s.fsm = .wait)
    (h : Unanswered (fun d => d.poll = .pending) k s) :
    Host.Core.run Sys2Proof.core k s = (.next (s.polledFor k) : Answer) := by
  induction k generalizing s with
  | zero => rw [State.polledFor_zero, run_zero]
  | succ k ih =>
    have hstep : step s = .next (s.passIdle.takeDraw.sent (pollRequest s)) :=
      (step_wait hf h.resetNext).trans (waitStep_pending (s := s.passIdle) h.nextDraw)
    rw [run_succ k hstep, ih (s := s.passIdle.takeDraw.sent (pollRequest s)) hf (h.tail rfl rfl),
      State.polledFor_succ]

/-- Passing idle acts brings no new act. -/
theorem mem_of_mem_dropIdle {e : HostEvent} {events : List HostEvent} {j : Nat}
    (h : e ∈ dropIdle^[j] events) : e ∈ events := by
  induction j generalizing events with
  | zero => exact h
  | succ j ih =>
    have hmem := ih (events := dropIdle events) h
    unfold dropIdle at hmem
    split at hmem
    · exact List.mem_cons_of_mem _ hmem
    · exact hmem

theorem unanswered_of_script (hk : k ≤ s.script.length) (hhost : ∀ e ∈ s.host, e ≠ .reset)
    (hdraws : ∀ d ∈ s.script.take k, silent d) : Unanswered silent k s :=
  ⟨hk, hdraws, fun _ _ hhead => hhost _ (mem_of_mem_dropIdle (List.mem_of_mem_head? hhead)) rfl⟩

/-- Settles O46: the run of steps without an answer changes neither STATE nor the responses. -/
theorem unansweredFlushHangs : Obligations.UnansweredFlushHangs := by
  refine fun k s hk hhost => ⟨fun hf hdraws => ?_, fun hf hdraws => ?_⟩
  · refine ⟨_, run_submit_unanswered hf (unanswered_of_script hk hhost hdraws), hf, ?_, rfl⟩
    simp [State.cmdReady, State.heldFor, hf]
  · refine ⟨_, run_wait_unanswered hf (unanswered_of_script hk hhost hdraws), hf, ?_, rfl⟩
    simp [State.cmdReady, State.polledFor, State.heldFor, hf]

/-! A FLUSH from its acceptance to DONE_OK (20_memory.md R51, R118,
70_reset_and_hazards.md R169). -/

/-- HOST has done its last act or holds a word, so BLOCK's own steps leave HOST as it is. -/
def HostWaits (events : List HostEvent) : Prop :=
  events = [] ∨ ∃ w rest, events = .present w :: rest

theorem HostWaits.dropIdle_iterate {events : List HostEvent} (h : HostWaits events) (j : Nat) :
    dropIdle^[j] events = events := by
  apply Function.iterate_fixed
  rcases h with rfl | ⟨w, rest, rfl⟩ <;> rfl

theorem HostWaits.resetNext (h : HostWaits s.host) : s.resetNext = false := by
  unfold State.resetNext
  rcases h with hh | ⟨w, rest, hh⟩ <;> rw [hh]

/-- The script begins with `k` times the same draw without an answer, and HOST waits. -/
theorem unanswered_of_replicate {d : Draw} {later : List Draw} (hd : silent d)
    (hscript : s.script = List.replicate k d ++ later) (hhost : HostWaits s.host) :
    Unanswered silent k s where
  scripted := by simp [hscript]
  draws e he := by
    rw [hscript, List.take_left' List.length_replicate] at he
    rwa [List.eq_of_mem_replicate he]
  noReset j _ := by
    rw [hhost.dropIdle_iterate, ne_eq, ← resetNext_iff, hhost.resetNext]
    exact Bool.false_ne_true

/-- What the script still holds after those draws. -/
theorem heldFor_script {d : Draw} {later : List Draw}
    (hscript : s.script = List.replicate k d ++ later) : (s.heldFor k).script = later := by
  simp [State.heldFor, hscript]

theorem heldFor_host (hhost : HostWaits s.host) : (s.heldFor k).host = s.host :=
  hhost.dropIdle_iterate k

end

/-- BLOCK in WAIT for the transfer `id` of a FLUSH accepted in `s`: the submission and after it
`polls` unanswered polls are sent, HOST is at `rest` and TRANSPORT at `later`. -/
structure Awaiting (s : State) (rest : List HostEvent) (id : XferId) (polls : Nat)
    (later : List Draw) (u : State) : Prop where
  fsm : u.fsm = .wait
  cfg : u.cfg = s.cfg
  fb : u.fb = s.fb
  handle : u.handle = s.handle
  pendId : u.pendId = id
  host : u.host = rest
  script : u.script = later
  responses : u.responses = s.responses
  wires : u.wires = s.wires
  requests : u.requests = s.requests ++ [.submit s.handle s.cfg.fbBase (lenBits s.cfg.n)] ++
    List.replicate polls (.poll s.handle id)

section

variable {s u : State} {rest : List HostEvent} {id : XferId} {polls k : Nat} {d e : Draw}
  {later : List Draw}

theorem flushScript_append (held pending : Nat) (id : XferId) (last : PollAnswer)
    (later : List Draw) :
    flushScript held pending id last ++ later =
      List.replicate held ⟨none, none, none, .pending, []⟩ ++
        ⟨none, none, some (.accept id), .pending, []⟩ ::
          (List.replicate pending ⟨none, none, none, .pending, []⟩ ++
            ⟨none, none, none, last, []⟩ :: later) := by
  simp [flushScript]

/-- The step that accepts a FLUSH in READY takes the word and goes to SUBMIT (R110). -/
theorem step_flush (hf : s.fsm = .ready) (hh : s.host = .present 0x2000000000000000#64 :: rest) :
    step s = .next (s.handshake.goto .submit) :=
  (step_of_command (turn_command hh (cmdReady_iff.mpr (.inl hf)) decode_flush)).trans
    (execFlush_ready hf)

/-- From SUBMIT to WAIT: TRANSPORT, after `k` steps without an answer, accepts the submission. -/
theorem run_submit_to_wait (hf : s.fsm = .submit) (hhost : HostWaits s.host)
    (hscript : s.script = List.replicate k d ++ e :: later) (hd : d.submit = none)
    (he : e.submit = some (.accept id)) :
    ∃ u, Host.Core.run Sys2Proof.core (k + 1) s = (.next u : Answer) ∧
      Awaiting s s.host id 0 later u := by
  have hheld := run_submit_unanswered hf (unanswered_of_replicate hd hscript hhost)
  have hleft : (s.heldFor k).script = e :: later := heldFor_script hscript
  have hsame : (s.heldFor k).host = s.host := heldFor_host hhost
  have hwaits : HostWaits (s.heldFor k).host := hsame.symm ▸ hhost
  obtain ⟨-, haccept, -⟩ := submitStepOutcomes (s.heldFor k) hf hwaits.resetNext
  refine ⟨_, (run_add k 1 hheld).trans
    (run_succ 0 (haccept id (by rw [nextDraw_script hleft, he]))), ?_⟩
  exact
    { fsm := rfl
      cfg := rfl
      fb := rfl
      handle := rfl
      pendId := rfl
      host := (hwaits.dropIdle_iterate 1).trans hsame
      script := congrArg List.tail hleft
      responses := rfl
      wires := rfl
      requests := (List.append_nil _).symm }

/-- `k` polls more, each answered PENDING. -/
theorem Awaiting.run_pending (h : Awaiting s rest id polls (List.replicate k d ++ later) u)
    (hhost : HostWaits rest) (hd : d.poll = .pending) :
    ∃ v, Host.Core.run Sys2Proof.core k u = (.next v : Answer) ∧
      Awaiting s rest id (polls + k) later v := by
  have huhost : HostWaits u.host := h.host.symm ▸ hhost
  refine ⟨_, run_wait_unanswered h.fsm (unanswered_of_replicate hd h.script huhost), ?_⟩
  exact
    { h with
      host := (heldFor_host huhost).trans h.host
      script := heldFor_script h.script
      requests := by
        rw [State.polledFor_requests, h.requests, pollRequest, h.handle, h.pendId,
          List.append_assoc, List.replicate_append_replicate] }

/-- The poll answered DONE_OK: the FLUSH is answered, and FB's frame is on the wire. -/
theorem Awaiting.step_done {bytes : List Byte} (h : Awaiting s rest id polls (d :: later) u)
    (hhost : HostWaits rest) (hd : d.poll = .doneOk)
    (hbytes : s.memRead 0 (frameLen s.cfg.n) = some bytes) :
    ∃ t, step u = .next t ∧ t.fsm = .ready ∧ t.host = rest ∧ t.script = later ∧ t.fb = s.fb ∧
      t.responses = s.responses ++ [⟨0#3, 0#32⟩] ∧
      t.wires = s.wires ++ [⟨true, wireBits bytes⟩] ∧
      t.requests = s.requests ++ [.submit s.handle s.cfg.fbBase (lenBits s.cfg.n)] ++
        List.replicate (polls + 1) (.poll s.handle id) := by
  have hwaits : HostWaits u.host := h.host.symm ▸ hhost
  have hframe : u.memRead 0 (frameLen u.cfg.n) = some bytes := by
    rw [← hbytes, State.memRead, State.memRead, h.cfg, h.fb]
  refine ⟨_, doneOkAnswersTheFlush u bytes h.fsm hwaits.resetNext
    (by rw [nextDraw_script h.script, hd]) hframe, rfl, (hwaits.dropIdle_iterate 1).trans h.host,
    congrArg List.tail h.script, h.fb, ?_, ?_, ?_⟩
  · rw [h.responses]
  · rw [h.wires]
  · rw [h.requests, h.handle, h.pendId, List.replicate_succ', List.append_assoc]

end

/-- Settles O45: the run to WAIT, the unanswered polls, and the DONE answer, one after the other; up
to the last step no response is shown, so none was shown on the way. -/
theorem flushTransmitsTheAcceptedFrame : Obligations.FlushTransmitsTheAcceptedFrame := by
  intro s rest held pending id later hinv hf hh hhost hscript
  have hframe := hinv.frame (by simp [State.filled, hf])
  obtain ⟨hlen, -⟩ := readRun_some hframe.memRead_eq
  have hrest : (s.handshake.goto .submit).host = rest := congrArg List.tail hh
  rw [flushScript_append] at hscript
  obtain ⟨a, hrunA, hA⟩ := run_submit_to_wait (s := s.handshake.goto .submit) rfl
    (hrest.symm ▸ hhost) hscript rfl rfl
  rw [hrest] at hA
  obtain ⟨u, hrunU, hU⟩ := hA.run_pending hhost rfl
  obtain ⟨t, hstep, hfsm, hthost, htscript, hfb, hresponses, hwires, hrequests⟩ :=
    hU.step_done hhost rfl hframe.memRead_eq
  have hrun : Host.Core.run Sys2Proof.core (held + 1 + pending + 1) s = (.next u : Answer) :=
    (run_succ _ (step_flush hf hh)).trans ((run_add _ pending hrunA).trans hrunU)
  have hsteps : held + pending + 3 = held + 1 + pending + 1 + 1 := by omega
  refine ⟨_, t, hframe.memRead_eq, hlen, ?_, hfsm, hthost, htscript, fun k => by rw [hfb]; rfl,
    hresponses, hwires, ?_, fun m hm => ?_⟩
  · rw [hsteps]
    exact (run_add _ 1 hrun).trans (run_succ 0 hstep)
  · rw [hrequests, Nat.zero_add]
    rfl
  · obtain ⟨k, hk⟩ := Nat.exists_eq_add_of_le (show m ≤ held + 1 + pending + 1 by omega)
    exact run_responses_between (hk ▸ hrun) hU.responses

end Sys2Proof.Machine
end
